-- ==== Sys2Proof/Word.lean ====
section
/-! DEFINITION. The word types of the block: the widths that `spec/00_scope.md` R12, `10_state.md` R30, R33 and
`30_encoding.md` R72 to R74, R83 fix. What is not a word in the spec (an offset, a length, a count, an exact sum) is an `Int`
or a `Nat` (R11: all arithmetic is on mathematical integers unless a width is stated). -/

namespace Sys2Proof

/-- A byte (R12). -/
abbrev Byte := BitVec 8

/-- A nibble (R12). -/
abbrev Nibble := BitVec 4

/-- A line-code word `cw[5:0]`, a number in 0..63 (R12, R74). -/
abbrev Codeword := BitVec 6

/-- A 16-bit header field (R33). -/
abbrev Half := BitVec 16

/-- A command code `cmd[1:0]` (R83). -/
abbrev CommandCode := BitVec 2

/-- One phase sample: a signed integer (R73). Its width `SAMPLE_W` is a parameter of the built block, not of the type. -/
abbrev Sample := Int

end Sys2Proof
end

