-- ==== Sys2Proof/Config.lean ====
section
/-! DEFINITION. The elaboration-time parameters of one built block (`spec/00_scope.md` R8) and their legal values. They are OPEN
in the spec ("a model takes these as arguments"), so the model carries them in `State.cfg`, where no command changes them, and
every statement is about every value of them. -/

namespace Sys2Proof

/-- The parameters of R8 that do not follow from others. `NSYM`, `M` and `TEMPLATE` follow (`Machine/Synchronizer.lean`).
For the three bounds that R8 lets a model take as unbounded, `none` is "unbounded". -/
structure Params where
  /-- `OSF`, raw samples per transmitted symbol. -/
  osf : Nat
  /-- `PREAMBLE_BITS`, in time order. -/
  preambleBits : List Int
  /-- `SAMPLE_W`. -/
  sampleWidth : Option Nat
  /-- `CHUNK_MAX`. -/
  chunkMax : Option Nat
  /-- `RAW_MAX`. -/
  rawMax : Option Nat
  deriving DecidableEq, Repr

/-- The legal values of R8: `OSF` positive and even, `PREAMBLE_BITS` a non-empty sequence over −1 and +1, `CHUNK_MAX ≥ 1`,
`RAW_MAX ≥ 289`, and a sample width that holds a signed number. `93_implementation_defined.md` U14: no block exists outside them. -/
abbrev Params.Valid (p : Params) : Prop :=
  0 < p.osf ∧ p.osf % 2 = 0 ∧ p.preambleBits ≠ [] ∧ (∀ b ∈ p.preambleBits, b = 1 ∨ b = -1) ∧
    p.sampleWidth.all (fun w => decide (1 ≤ w)) = true ∧
    p.chunkMax.all (fun m => decide (1 ≤ m)) = true ∧
    p.rawMax.all (fun m => decide (289 ≤ m)) = true

/-- The block that `State.reset` is built with: configuration CFG-T of `95_test_vectors.md` Part 3, every bound open.
DESIGN CHOICE (unsafe, notes/assumptions/1.md): the spec gives no value; no statement rests on this one. -/
def Params.cfgT : Params where
  osf := 2
  preambleBits := [1, -1, 1, -1, -1, -1, -1, -1, 1, 1]
  sampleWidth := none
  chunkMax := none
  rawMax := none

end Sys2Proof
end

