-- ==== Sys2Proof/Syntax.lean ====
section
/-! DEFINITION. The syntax: what the host presents to the block (`Transfer`), and `Instr`, one constructor for each of the 86 rows
of spec/opcode_table.json: four commands, two pseudo-operations, six stages of `FEED`, three steps of `DECODE36`, seven
functions and the 64 words of the line code. A row's constructor carries the row's operands (the rule it cites names them). -/

namespace Sys2Proof

/-- The 6-byte address field, `T.address[0]` to `T.address[5]`, in frame order and with no numeric reading (R33, R58). -/
structure Address where
  a0 : Byte
  a1 : Byte
  a2 : Byte
  a3 : Byte
  a4 : Byte
  a5 : Byte
  deriving DecidableEq, Repr

/-- The telegram record (R33). -/
structure Telegram where
  lengthField : Byte
  control : Byte
  manufacturerId : Half
  address : Address
  headerCrc : Half
  controlInfo : Byte
  payload : List Byte
  deriving DecidableEq, Repr

/-- The operand of a command, as a whole sequence (R83, R157). -/
inductive Operand where
  | none
  | chunk (samples : List Sample)
  | raw (bytes : List Byte)
  deriving DecidableEq, Repr

/-- The two pseudo-operations of the listing form (R85). -/
inductive Pseudo where
  | nopfeed
  | parseframe
  deriving DecidableEq, Repr

/-- One thing presented to the block from outside, in its encoded form. `command` is a transfer on the command input of R157.
`pseudo` is a line of the listing form of R84, R85, which the host expands at the moment it is reached. `lineWord` is one word of
the line code at the input of the 3-of-6 table (R74, R80). -/
inductive Transfer where
  | command (cmd : CommandCode) (operand : Operand)
  | pseudo (p : Pseudo)
  | lineWord (cw : Codeword)
  deriving DecidableEq, Repr

/-- Why a transfer is no instruction. -/
inductive DecodeError where
  /-- The operand is not of the kind that R83 gives the command code. -/
  | operandOfWrongKind (cmd : CommandCode)
  deriving DecidableEq, Repr

/-- The rows of spec/opcode_table.json. -/
inductive Instr where
  -- CMD (R83): the four host commands
  /-- `FEED chunk` (R151). -/
  | feed (chunk : List Sample)
  /-- `PARSE raw` (R152). -/
  | parse (raw : List Byte)
  /-- `SERIALIZE` (R153). -/
  | serialize
  /-- `RESET` (R154). -/
  | reset
  -- PSEUDO (R85)
  /-- `NOPFEED`: `FEED []`. -/
  | nopfeed
  /-- `PARSEFRAME`: `PARSE` of `accumulatedBytes` as it stands at that moment. -/
  | parseframe
  -- STAGE: the six stages of FEED
  /-- `RESTART` (R132). -/
  | restart
  /-- `SYNC(chunk)` (R102). -/
  | sync (chunk : List Sample)
  /-- `SAMPLE(chunk, samplingOffset)` (R110). -/
  | sample (chunk : List Sample)
  /-- `RETIME(n, samplingOffset)` (R111). -/
  | retime (n : Nat)
  /-- `DECODE36(bits)` (R120). -/
  | decode36 (bits : List Bool)
  /-- `ASSEMBLE(bytes)` (R130). -/
  | assemble (bytes : List Byte)
  -- STEP: steps of DECODE36
  /-- `PACK6(group)`, six bits (R122). -/
  | pack6 (group : List Bool)
  /-- `TRANSLATE(cw)` (R124). -/
  | translate (cw : Codeword)
  /-- `PACK8`, an even number of nibbles (R125). -/
  | pack8 (nibbles : List Nibble)
  -- FUNCTION
  /-- `GENPREAMBLE(bits, osf)` (R100). -/
  | genpreamble (bits : List Int) (osf : Nat)
  /-- `XCORR(chunk, tmpl)` (R101). -/
  | xcorr (chunk tmpl : List Int)
  /-- `LUT36(cw)` (R80). -/
  | lut36 (cw : Codeword)
  /-- `CALCSIZE(L)` (R131). -/
  | calcsize (l : Byte)
  /-- `parse(raw)`, the function (R141). -/
  | parseFn (raw : List Byte)
  /-- `STRIP(raw, L)` (R142). -/
  | strip (raw : List Byte) (l : Byte)
  /-- `serialize(t)`, the function (R143). -/
  | serializeFn (t : Telegram)
  -- CODEWORD (R75, R80, R81): the contents of LUT36, by `cw[5:3]`
  | cw0Illegal | cw1Illegal | cw2Illegal | cw3Illegal | cw4Illegal | cw5Illegal | cw6Illegal | cw7Illegal
  | cw8Illegal | cw9Illegal | cw10Illegal | cw11 | cw12Illegal | cw13 | cw14 | cw15Illegal
  | cw16Illegal | cw17Illegal | cw18Illegal | cw19 | cw20Illegal | cw21Illegal | cw22 | cw23Illegal
  | cw24Illegal | cw25 | cw26 | cw27Illegal | cw28 | cw29Illegal | cw30Illegal | cw31Illegal
  | cw32Illegal | cw33Illegal | cw34Illegal | cw35 | cw36Illegal | cw37 | cw38 | cw39Illegal
  | cw40Illegal | cw41 | cw42Illegal | cw43Illegal | cw44 | cw45Illegal | cw46Illegal | cw47Illegal
  | cw48Illegal | cw49 | cw50 | cw51Illegal | cw52 | cw53Illegal | cw54Illegal | cw55Illegal
  | cw56Illegal | cw57Illegal | cw58Illegal | cw59Illegal | cw60Illegal | cw61Illegal | cw62Illegal | cw63Illegal
  deriving DecidableEq, Repr

end Sys2Proof
end

