-- ==== Sys2Proof/WellFormed.lean ====
section
/-! DEFINITION. The well-formedness of an instruction: the operand domains that its rule states. What depends on the parameters
or on the state (a bound, a sample width, the offset) is no matter of syntax and is tested where the instruction runs. -/

namespace Sys2Proof

/-- The operand domains: a chunk that is correlated, sampled or retimed has `n ≥ 1` samples (R102, R110, R111); a group has six
bits (R122); nibbles come in pairs (R125); an oversampling factor is positive (R100); a correlation has two non-empty operands
(R101); `STRIP` takes at least 13 bytes (R142); a payload has at most 255 bytes (R33). -/
def Instr.wellFormed : Instr → Bool
  | .feed _ => true
  | .parse _ => true
  | .serialize => true
  | .reset => true
  | .nopfeed => true
  | .parseframe => true
  | .restart => true
  | .sync chunk => !chunk.isEmpty
  | .sample chunk => !chunk.isEmpty
  | .retime n => decide (1 ≤ n)
  | .decode36 _ => true
  | .assemble _ => true
  | .pack6 group => decide (group.length = 6)
  | .translate _ => true
  | .pack8 nibbles => decide (nibbles.length % 2 = 0)
  | .genpreamble _ osf => decide (1 ≤ osf)
  | .xcorr chunk tmpl => !chunk.isEmpty && !tmpl.isEmpty
  | .lut36 _ => true
  | .calcsize _ => true
  | .parseFn _ => true
  | .strip raw _ => decide (13 ≤ raw.length)
  | .serializeFn t => decide (t.payload.length ≤ 255)
  | .cw0Illegal | .cw1Illegal | .cw2Illegal | .cw3Illegal | .cw4Illegal | .cw5Illegal | .cw6Illegal | .cw7Illegal => true
  | .cw8Illegal | .cw9Illegal | .cw10Illegal | .cw11 | .cw12Illegal | .cw13 | .cw14 | .cw15Illegal => true
  | .cw16Illegal | .cw17Illegal | .cw18Illegal | .cw19 | .cw20Illegal | .cw21Illegal | .cw22 | .cw23Illegal => true
  | .cw24Illegal | .cw25 | .cw26 | .cw27Illegal | .cw28 | .cw29Illegal | .cw30Illegal | .cw31Illegal => true
  | .cw32Illegal | .cw33Illegal | .cw34Illegal | .cw35 | .cw36Illegal | .cw37 | .cw38 | .cw39Illegal => true
  | .cw40Illegal | .cw41 | .cw42Illegal | .cw43Illegal | .cw44 | .cw45Illegal | .cw46Illegal | .cw47Illegal => true
  | .cw48Illegal | .cw49 | .cw50 | .cw51Illegal | .cw52 | .cw53Illegal | .cw54Illegal | .cw55Illegal => true
  | .cw56Illegal | .cw57Illegal | .cw58Illegal | .cw59Illegal | .cw60Illegal | .cw61Illegal | .cw62Illegal | .cw63Illegal => true

end Sys2Proof
end

