-- ==== Sys2Proof/Decode.lean ====
section
/-! DEFINITION. The decoder from a transfer to an instruction, the encoder back, and the reading of an opcode-table word. The
command codes are R83, the line-code words R74 and R80. The stages, steps and functions have no code (R83: "a host cannot issue
them, they run only as parts of commands"), so nothing decodes to them and they have no encoding. -/

namespace Sys2Proof

/-- A command code with its operand (R83): 00 `FEED`, 01 `PARSE`, 10 `SERIALIZE`, 11 `RESET`. All four codes are used; an operand
of the wrong kind is refused by name. -/
def decodeCommand (cmd : CommandCode) (operand : Operand) : Except DecodeError Instr :=
  match cmd.toNat, operand with
  | 0, .chunk samples => .ok (.feed samples)
  | 1, .raw bytes => .ok (.parse bytes)
  | 2, .none => .ok .serialize
  | 3, .none => .ok .reset
  | _, _ => .error (.operandOfWrongKind cmd)

/-- A pseudo-operation of the listing form (R85). -/
def decodePseudo : Pseudo → Instr
  | .nopfeed => .nopfeed
  | .parseframe => .parseframe

/-- The 64 words of the line code, laid out as R80 lays out `LUT36`: row `cw[5:3]`, column `cw[2:0]`. -/
def lineCodeRows : List (List Instr) :=
  [[.cw0Illegal, .cw1Illegal, .cw2Illegal, .cw3Illegal, .cw4Illegal, .cw5Illegal, .cw6Illegal, .cw7Illegal]] ++
  [[.cw8Illegal, .cw9Illegal, .cw10Illegal, .cw11, .cw12Illegal, .cw13, .cw14, .cw15Illegal]] ++
  [[.cw16Illegal, .cw17Illegal, .cw18Illegal, .cw19, .cw20Illegal, .cw21Illegal, .cw22, .cw23Illegal]] ++
  [[.cw24Illegal, .cw25, .cw26, .cw27Illegal, .cw28, .cw29Illegal, .cw30Illegal, .cw31Illegal]] ++
  [[.cw32Illegal, .cw33Illegal, .cw34Illegal, .cw35, .cw36Illegal, .cw37, .cw38, .cw39Illegal]] ++
  [[.cw40Illegal, .cw41, .cw42Illegal, .cw43Illegal, .cw44, .cw45Illegal, .cw46Illegal, .cw47Illegal]] ++
  [[.cw48Illegal, .cw49, .cw50, .cw51Illegal, .cw52, .cw53Illegal, .cw54Illegal, .cw55Illegal]] ++
  [[.cw56Illegal, .cw57Illegal, .cw58Illegal, .cw59Illegal, .cw60Illegal, .cw61Illegal, .cw62Illegal, .cw63Illegal]]

/-- The row of the opcode table that a line-code word is (R74: the whole word selects the entry). -/
def lineInstr (cw : Codeword) : Instr :=
  (lineCodeRows.getD (cw.toNat / 8) []).getD (cw.toNat % 8) .cw0Illegal

/-- The decoder. Total; the one thing it rejects is an operand of the wrong kind. -/
def decode : Transfer → Except DecodeError Instr
  | .command cmd operand => decodeCommand cmd operand
  | .pseudo p => .ok (decodePseudo p)
  | .lineWord cw => .ok (lineInstr cw)

/-- The encoder. `none` for the sixteen rows that have no encoding of their own (stages, steps and functions, R83). -/
def encode : Instr → Option Transfer
  | .feed chunk => some (.command 0 (.chunk chunk))
  | .parse raw => some (.command 1 (.raw raw))
  | .serialize => some (.command 2 .none)
  | .reset => some (.command 3 .none)
  | .nopfeed => some (.pseudo .nopfeed)
  | .parseframe => some (.pseudo .parseframe)
  | .restart => none
  | .sync _ => none
  | .sample _ => none
  | .retime _ => none
  | .decode36 _ => none
  | .assemble _ => none
  | .pack6 _ => none
  | .translate _ => none
  | .pack8 _ => none
  | .genpreamble _ _ => none
  | .xcorr _ _ => none
  | .lut36 _ => none
  | .calcsize _ => none
  | .parseFn _ => none
  | .strip _ _ => none
  | .serializeFn _ => none
  | .cw0Illegal => some (.lineWord 0)
  | .cw1Illegal => some (.lineWord 1)
  | .cw2Illegal => some (.lineWord 2)
  | .cw3Illegal => some (.lineWord 3)
  | .cw4Illegal => some (.lineWord 4)
  | .cw5Illegal => some (.lineWord 5)
  | .cw6Illegal => some (.lineWord 6)
  | .cw7Illegal => some (.lineWord 7)
  | .cw8Illegal => some (.lineWord 8)
  | .cw9Illegal => some (.lineWord 9)
  | .cw10Illegal => some (.lineWord 10)
  | .cw11 => some (.lineWord 11)
  | .cw12Illegal => some (.lineWord 12)
  | .cw13 => some (.lineWord 13)
  | .cw14 => some (.lineWord 14)
  | .cw15Illegal => some (.lineWord 15)
  | .cw16Illegal => some (.lineWord 16)
  | .cw17Illegal => some (.lineWord 17)
  | .cw18Illegal => some (.lineWord 18)
  | .cw19 => some (.lineWord 19)
  | .cw20Illegal => some (.lineWord 20)
  | .cw21Illegal => some (.lineWord 21)
  | .cw22 => some (.lineWord 22)
  | .cw23Illegal => some (.lineWord 23)
  | .cw24Illegal => some (.lineWord 24)
  | .cw25 => some (.lineWord 25)
  | .cw26 => some (.lineWord 26)
  | .cw27Illegal => some (.lineWord 27)
  | .cw28 => some (.lineWord 28)
  | .cw29Illegal => some (.lineWord 29)
  | .cw30Illegal => some (.lineWord 30)
  | .cw31Illegal => some (.lineWord 31)
  | .cw32Illegal => some (.lineWord 32)
  | .cw33Illegal => some (.lineWord 33)
  | .cw34Illegal => some (.lineWord 34)
  | .cw35 => some (.lineWord 35)
  | .cw36Illegal => some (.lineWord 36)
  | .cw37 => some (.lineWord 37)
  | .cw38 => some (.lineWord 38)
  | .cw39Illegal => some (.lineWord 39)
  | .cw40Illegal => some (.lineWord 40)
  | .cw41 => some (.lineWord 41)
  | .cw42Illegal => some (.lineWord 42)
  | .cw43Illegal => some (.lineWord 43)
  | .cw44 => some (.lineWord 44)
  | .cw45Illegal => some (.lineWord 45)
  | .cw46Illegal => some (.lineWord 46)
  | .cw47Illegal => some (.lineWord 47)
  | .cw48Illegal => some (.lineWord 48)
  | .cw49 => some (.lineWord 49)
  | .cw50 => some (.lineWord 50)
  | .cw51Illegal => some (.lineWord 51)
  | .cw52 => some (.lineWord 52)
  | .cw53Illegal => some (.lineWord 53)
  | .cw54Illegal => some (.lineWord 54)
  | .cw55Illegal => some (.lineWord 55)
  | .cw56Illegal => some (.lineWord 56)
  | .cw57Illegal => some (.lineWord 57)
  | .cw58Illegal => some (.lineWord 58)
  | .cw59Illegal => some (.lineWord 59)
  | .cw60Illegal => some (.lineWord 60)
  | .cw61Illegal => some (.lineWord 61)
  | .cw62Illegal => some (.lineWord 62)
  | .cw63Illegal => some (.lineWord 63)

/-- The expansion of a pseudo-operation into the command it stands for (R85), given `accumulatedBytes` as it stands at that
moment. Every other instruction stands for itself. -/
def expandPseudo (accumulatedBytes : List Byte) (i : Instr) : Instr :=
  match decide (i = .nopfeed), decide (i = .parseframe) with
  | true, _ => .feed []
  | _, true => .parse accumulatedBytes
  | _, _ => i

/-- A command code alone, its operand empty. -/
def emptyOperand (cmd : CommandCode) : Operand :=
  match cmd.toNat with
  | 0 => .chunk []
  | 1 => .raw []
  | _ => .none

/-- The transfer that a word of spec/opcode_table.json stands for, operands empty. A `CMD` row has 2 bits and a `CODEWORD` row 6,
in two separate code spaces; a word given in whole bytes (8 bits) does not say which of the two it is, and 0 to 3 are then read as
commands (notes/assumptions/4.md). -/
def tableTransfer (nbits w : Nat) : Option Transfer :=
  match nbits with
  | 2 => if w < 4 then some (.command (BitVec.ofNat 2 w) (emptyOperand (BitVec.ofNat 2 w))) else none
  | 6 => if w < 64 then some (.lineWord (BitVec.ofNat 6 w)) else none
  | 8 =>
    if w < 4 then some (.command (BitVec.ofNat 2 w) (emptyOperand (BitVec.ofNat 2 w)))
    else if w < 64 then some (.lineWord (BitVec.ofNat 6 w))
    else none
  | _ => none

/-- The instruction that the decoder reads from an opcode-table word. -/
def decodeTableWord (nbits w : Nat) : Option Instr :=
  (tableTransfer nbits w).bind fun t =>
    match decode t with
    | .ok i => some i
    | .error _ => none

end Sys2Proof
end

