-- ==== Sys2Proof/Machine/State.lean ====
section
/-! DEFINITION. The state of one instance of the block: the three records of `spec/10_state.md` R20 (receiver, fault and status,
telegram), the parameters it was built with, and the interface of R157 (what the host presents next, how the last operation ended,
what it returned). -/

namespace Sys2Proof.Machine

/-- The six receiver registers (R21 to R26), under the spec's names. -/
structure Receiver where
  /-- R21: −1 is "unsynchronized", else an index into the next chunk. -/
  samplingOffset : Int
  /-- R22: 0 is "unknown", else 2..289. -/
  targetFrameLength : Nat
  /-- R23. -/
  frameComplete : Bool
  /-- R24, host name `currentFrame`. -/
  accumulatedBytes : List Byte
  /-- R25: fewer than 6 bits, oldest first. -/
  spilledBits : List Bool
  /-- R26: at most one codeword, packed and not translated. -/
  spilledNibbles : List Codeword
  deriving DecidableEq, Repr

/-- The two faults of R160. -/
inductive FaultKind where
  | invalidLineCode
  | truncatedFrame
  deriving DecidableEq, Repr

/-- The three ways a command ends (R15). -/
inductive CommandEnd where
  | done
  | fault
  | refused
  deriving DecidableEq, Repr

/-- What an operation returns: the byte sequence of `SERIALIZE` on the result output of R157, and the value of a stage, step or
function when it is run by itself. -/
inductive Result where
  | bytes (bs : List Byte)
  | bits (bs : List Bool)
  | integers (vs : List Int)
  | codeword (cw : Codeword)
  | nibble (n : Nibble)
  | lutEntry (n : Option Nibble)
  | size (n : Nat)
  | telegram (t : Telegram)
  deriving DecidableEq, Repr

/-- The state of one instance. `telegramValid` (R31) is `telegram.isSome`: U6 of `93_implementation_defined.md` has a model hold
the record "as an option that is empty at reset", and R33 gives the registers no value while `telegramValid = 0`. -/
structure State where
  /-- The parameters of R8, fixed when the instance is built. -/
  cfg : Params
  /-- The receiver registers. -/
  rx : Receiver
  /-- R30, 2 bits: 0 none, 1 `InvalidLineCode`, 2 `TruncatedFrame`. -/
  fault : BitVec 2
  /-- R30, 8 bits. -/
  faultInfo : Byte
  /-- R31 and R33: the telegram registers, when they hold a value. -/
  telegram : Option Telegram
  /-- The transfers the host presents next, in order. The model's own field: the command input of R157. -/
  pending : List Transfer
  /-- How the last operation ended (R15). The model's own field: the outcome output of R157. -/
  outcome : Option CommandEnd
  /-- What the last operation returned. The model's own field: the result output of R157. -/
  result : Option Result
  deriving DecidableEq, Repr

/-- The read-only status outputs (R35, R157). -/
structure StatusPorts where
  samplingOffset : Int
  targetFrameLength : Nat
  frameComplete : Bool
  currentFrame : List Byte
  spilledBits : List Bool
  spilledNibbles : List Codeword
  fault : BitVec 2
  faultInfo : Byte
  telegramValid : Bool
  telegram : Option Telegram
  deriving DecidableEq, Repr

/-- Reasons for the machine to stop with a fault: none. Both faults of R160 are entered (R163), which is a next state. -/
inductive Fault : Type
  deriving DecidableEq, Repr

/-- Reasons for the machine to give a step no meaning. All are safe: nothing can be proved about what follows. -/
inductive Refusal where
  /-- Raised by a dispatch arm whose instruction has no meaning yet. Safe. -/
  | notModelled (mnemonic : String)
  /-- Raised by `FEED` and the stages that use `OSF` when the parameters are outside R8 (U14: no such instance exists). Safe. -/
  | noSuchInstance
  /-- Raised by `FEED`, `SYNC` and `SAMPLE` when a sample does not fit `SAMPLE_W` bits (R73, U15). Safe. -/
  | sampleOutsideWidth
  /-- Raised by a stage, step or function on operands outside the domain its rule states. Safe. -/
  | operandOutsideDomain
  /-- Raised by `SAMPLE`, `RETIME` and `FEED` when the offset they would sample from is negative, which R110 excludes. Safe. -/
  | samplingOffsetIllegal
  /-- Raised by the fetch when a transfer is no instruction. Safe. -/
  | undecodable (e : DecodeError)
  deriving DecidableEq, Repr

/-- The receiver registers at reset (R37). -/
def Receiver.reset : Receiver where
  samplingOffset := -1
  targetFrameLength := 0
  frameComplete := false
  accumulatedBytes := []
  spilledBits := []
  spilledNibbles := []

/-- A newly built instance with parameters `cfg` (R37, R180), nothing presented to it yet. -/
def State.resetWith (cfg : Params) : State where
  cfg := cfg
  rx := Receiver.reset
  fault := 0
  faultInfo := 0
  telegram := none
  pending := []
  outcome := none
  result := none

/-- The machine right after reset. Its parameters are those of `Params.cfgT` (notes/assumptions/1.md). -/
def State.reset : State := State.resetWith Params.cfgT

end Sys2Proof.Machine
end

