-- ==== Sys2Proof/Machine/Operands.lean ====
section
/-! DEFINITION. The operand forms: how a rule reads a sequence (`spec/00_scope.md` R13), a sample (R73, R101), a byte, a 16-bit
field (R58), and the bounds of R8 that an operand is held against. -/

namespace Sys2Proof.Machine

/-- `clip(s, a, b)` (R13): the elements at indices `i` with `a ≤ i < min(b, len(s))`. -/
def clip {α : Type} (s : List α) (a b : Nat) : List α :=
  (s.drop a).take (b - a)

/-- `S(i)` of R101: the sample at index `i`, 0 outside the chunk. -/
def sampleAt (chunk : List Int) (i : Int) : Int :=
  if 0 ≤ i then chunk.getD i.toNat 0 else 0

/-- The byte at offset `i` of a raw frame. It is used only where `i < len(raw)` holds (R62). -/
def byteAt (raw : List Byte) (i : Nat) : Byte :=
  raw.getD i 0

/-- A little-endian 16-bit field (R58): `raw[i] | (raw[i+1] << 8)`. -/
def halfAt (raw : List Byte) (i : Nat) : Half :=
  (byteAt raw i).setWidth 16 ||| ((byteAt raw (i + 1)).setWidth 16 <<< 8)

/-- The two bytes of a 16-bit field, the less significant first (R58, R79). -/
def halfBytes (h : Half) : List Byte :=
  [h.extractLsb' 0 8, h.extractLsb' 8 8]

/-- The six bytes of an address in frame order (R58). -/
def addressBytes (a : Address) : List Byte :=
  [a.a0, a.a1, a.a2, a.a3, a.a4, a.a5]

/-- `zext_8` of a codeword (R12, R163). -/
def zextCodeword (cw : Codeword) : Byte :=
  cw.setWidth 8

/-- `sext_SAMPLE_W` (R12, R73): the two's-complement reading of a `w`-bit pattern on the sample input. -/
def sampleOfPattern {w : Nat} (pattern : BitVec w) : Sample :=
  pattern.toInt

/-- A signed integer of `SAMPLE_W` bits (R73). -/
def sampleFits (p : Params) (x : Sample) : Bool :=
  match p.sampleWidth with
  | none => true
  | some w => decide (-(2 : Int) ^ (w - 1) ≤ x ∧ x < (2 : Int) ^ (w - 1))

/-- An operand longer than a bound that is set (R155 b). -/
def overlong (bound : Option Nat) (n : Nat) : Bool :=
  match bound with
  | none => false
  | some m => decide (m < n)

/-- `ceil(a / b)` for `b > 0`, toward +∞ on the exact rational (R11). `Int` division here rounds toward −∞ for `b > 0`. -/
def ceilDiv (a b : Int) : Int :=
  -((-a) / b)

end Sys2Proof.Machine
end

