-- ==== Sys2Proof/Machine/Flags.lean ====
section
/-! DEFINITION. The flags of `spec/10_state.md` R29 and the fault codes of R30. -/

namespace Sys2Proof.Machine

/-- The code of a fault (R30, R160). -/
def FaultKind.code : FaultKind → BitVec 2
  | .invalidLineCode => 1
  | .truncatedFrame => 2

/-- The flag `fault ≠ 0` (R29). -/
def State.faulted (s : State) : Bool :=
  decide (s.fault ≠ 0)

/-- The flag `telegramValid` (R31). -/
def State.telegramValid (s : State) : Bool :=
  s.telegram.isSome

/-- The derived predicate *synchronized* (R29). -/
def Receiver.synchronized (rx : Receiver) : Bool :=
  decide (rx.samplingOffset ≠ -1)

/-- The completion test of `ASSEMBLE` (R130): made only when the length is known (D17). -/
def frameReached (targetFrameLength available : Nat) : Bool :=
  decide (targetFrameLength ≠ 0 ∧ targetFrameLength ≤ available)

end Sys2Proof.Machine
end

