-- ==== Sys2Proof/Machine/Ops.lean ====
section
/-! DEFINITION. The operations every meaning is built from: how a command ends (`spec/45_host_commands.md` R150), entering a fault
(`60_exceptions.md` R163) and leaving it (R165), the tests that come before a command's work (R155), taking the next transfer, and
what the host reads (R157). -/

namespace Sys2Proof.Machine

/-- What one operation answers. -/
abbrev Answer := Host.Outcome State Fault Refusal

/-- End `done` (R15), returning `r`. -/
def State.finish (s : State) (r : Option Result) : State :=
  { s with outcome := some .done, result := r }

/-- End `refused` (R15, R155): no register changes and nothing is returned. -/
def State.turnAway (s : State) : State :=
  { s with outcome := some .refused, result := none }

/-- FAULT ENTRY (R163), the one operation that takes an exception: `fault <- code(F)`, `faultInfo <- info`, and nothing else. -/
def State.raise (s : State) (k : FaultKind) (info : Byte) : State :=
  { s with fault := k.code, faultInfo := info, outcome := some .fault, result := none }

/-- THE WAY OUT OF A FAULT (R165, R154): every register back to its reset value (R37). The parameters and what the host presents
next are no registers. -/
def State.clearAll (s : State) : State :=
  { State.resetWith s.cfg with pending := s.pending, outcome := s.outcome, result := s.result }

/-- Commit the receiver registers (R150). -/
def State.setReceiver (s : State) (rx : Receiver) : State :=
  { s with rx := rx }

/-- Write the telegram registers, all seven together, and set `telegramValid` (R33, R152). -/
def State.setTelegram (s : State) (t : Telegram) : State :=
  { s with telegram := some t }

/-- The test that comes first (R155 a, R164): while `fault ≠ 0` the block is held. -/
def unlessFaulted (s : State) (run : Answer) : Answer :=
  if s.faulted then .next s.turnAway else run

/-- The operand must fit its buffer (R155 b). -/
def unlessOverlong (bound : Option Nat) (n : Nat) (s : State) (run : Answer) : Answer :=
  if overlong bound n then .next s.turnAway else run

/-- The parameters are those of a block that exists (U14). -/
def whenBuilt (s : State) (run : Answer) : Answer :=
  if s.cfg.Valid then run else .refused .noSuchInstance

/-- Every sample fits the sample input (R73, U15). -/
def whenSamplesFit (chunk : List Sample) (s : State) (run : Answer) : Answer :=
  if chunk.all (sampleFits s.cfg) then run else .refused .sampleOutsideWidth

/-- The operands are in the domain the rule states. -/
def whenInDomain (i : Instr) (run : Answer) : Answer :=
  if i.wellFormed then run else .refused .operandOutsideDomain

/-- `s ≥ 0` (R110, R111): sampling starts from a synchronised offset. -/
def whenOffset (rx : Receiver) (run : Answer) : Answer :=
  if 0 ≤ rx.samplingOffset then run else .refused .samplingOffsetIllegal

/-- A pure function (R2): it reads and writes no register and returns its value. -/
def returnValue (s : State) (r : Result) : Answer :=
  .next (s.finish (some r))

/-- Take the next transfer, in the order the host issued them (R66). -/
def takeTransfer (s : State) : Option (Transfer × State) :=
  match s.pending with
  | [] => none
  | t :: rest => some (t, { s with pending := rest })

/-- Present a transfer ahead of all others. -/
def presentNext (s : State) (t : Transfer) : State :=
  { s with pending := t :: s.pending }

/-- `currentFrame`, the host's name for `accumulatedBytes` (R24, R157). A read, with no side effect (R64). -/
def currentFrame (s : State) : List Byte :=
  s.rx.accumulatedBytes

/-- What the host reads on the status outputs at a command boundary (R35, R157): every register, the telegram only while
`telegramValid = 1`. A read, with no side effect (R64). -/
def statusPorts (s : State) : StatusPorts where
  samplingOffset := s.rx.samplingOffset
  targetFrameLength := s.rx.targetFrameLength
  frameComplete := s.rx.frameComplete
  currentFrame := currentFrame s
  spilledBits := s.rx.spilledBits
  spilledNibbles := s.rx.spilledNibbles
  fault := s.fault
  faultInfo := s.faultInfo
  telegramValid := s.telegramValid
  telegram := s.telegram

/-- The form of the block's storage. It has no address space (R50, R65), so its memory is the arrays that are registers, each a list
within its bound: the frame buffer (289 bytes) and its target, the payload buffer (255 bytes), `spilledBits` (fewer than 6) and
`spilledNibbles` (fewer than 2). Equal arrays are equal lists. -/
def Memory.wf (s : State) : Bool :=
  decide (s.rx.targetFrameLength ≤ 289) && decide (s.rx.accumulatedBytes.length ≤ 289) &&
  decide (s.rx.spilledBits.length < 6) && decide (s.rx.spilledNibbles.length < 2) &&
  s.telegram.all fun t => decide (t.payload.length ≤ 255)

end Sys2Proof.Machine
end

