-- ==== Sys2Proof/Machine/LineDecoder.lean ====
section
/-! DEFINITION. The line-decoder unit (`spec/42_line_decoder.md`): `DECODE36` and its five steps, and `LUT36`. -/

namespace Sys2Proof.Machine

/-- The 16 valid codewords and their nibbles, in the source's order (R75). -/
def lineCode : List (Codeword × Nibble) :=
  [(22, 0), (13, 1), (14, 2), (11, 3), (28, 4), (25, 5), (26, 6), (19, 7)] ++
  [(44, 8), (37, 9), (38, 10), (35, 11), (52, 12), (49, 13), (50, 14), (41, 15)]

/-- `LUT36(cw)` (R80): the nibble, or nothing for the 48 illegal codewords (R81). -/
def lut36 (cw : Codeword) : Option Nibble :=
  lineCode.lookup cw

/-- Step 1 (R121): groups of six from the front of the stream, and the remainder of fewer than six. -/
def groupBits : List Bool → List (List Bool) × List Bool
  | b0 :: b1 :: b2 :: b3 :: b4 :: b5 :: rest =>
    ([b0, b1, b2, b3, b4, b5] :: (groupBits rest).1, (groupBits rest).2)
  | rest => ([], rest)

/-- Step 2, `PACK6` (R74, R122): most-significant bit first. -/
def pack6 (group : List Bool) : Codeword :=
  BitVec.ofNat 6 (group.foldl (fun v b => 2 * v + b.toNat) 0)

/-- Step 3 (R123): the codewords to translate now, and the one held back when their number is odd. -/
def holdBack (all : List Codeword) : List Codeword × List Codeword :=
  if all.length % 2 = 1 then (all.take (all.length - 1), all.drop (all.length - 1)) else (all, [])

/-- Step 4, `TRANSLATE` (R124): the nibble, or the codeword to raise `InvalidLineCode` with. -/
def translate (cw : Codeword) : Except Codeword Nibble :=
  match lut36 cw with
  | some n => .ok n
  | none => .error cw

/-- Step 4 on all codewords, oldest first; the first that is not valid stops it (R124, D26). -/
def translateAll : List Codeword → Except Codeword (List Nibble)
  | [] => .ok []
  | cw :: rest =>
    match translate cw with
    | .error e => .error e
    | .ok n =>
      match translateAll rest with
      | .error e => .error e
      | .ok ns => .ok (n :: ns)

/-- One byte of a pair of nibbles (R82, R125): the earlier is `byte[7:4]`. -/
def byteOfNibbles (hi lo : Nibble) : Byte :=
  (hi.setWidth 8 <<< 4) ||| lo.setWidth 8

/-- Step 5, `PACK8` (R125). -/
def pack8 : List Nibble → List Byte
  | hi :: lo :: rest => byteOfNibbles hi lo :: pack8 rest
  | _ => []

/-- What a `DECODE36` that does not raise leaves (R120). -/
abbrev Decoded := List Byte × List Bool × List Codeword

/-- `DECODE36` (R120): the bytes, the new `spilledBits` and the new `spilledNibbles`, or the codeword it raises with. -/
def decode36 (spilledBits : List Bool) (spilledNibbles : List Codeword) (bits : List Bool) : Except Codeword Decoded :=
  let grouped := groupBits (spilledBits ++ bits)
  let paired := holdBack (spilledNibbles ++ grouped.1.map pack6)
  match translateAll paired.1 with
  | .error cw => .error cw
  | .ok nibbles => .ok (pack8 nibbles, grouped.2, paired.2)

/-- The spill registers as `DECODE36` leaves them. -/
def spillStage (d : Decoded) (rx : Receiver) : Receiver :=
  { rx with spilledBits := d.2.1, spilledNibbles := d.2.2 }

/-- `InvalidLineCode(cw)` (R161): `faultInfo` is the codeword. -/
def raiseInvalidLineCode (cw : Codeword) (s : State) : Answer :=
  .next (s.raise .invalidLineCode (zextCodeword cw))

/-- One codeword translated: its nibble returned, or `InvalidLineCode` raised (R124). -/
def translateCodeword (cw : Codeword) (s : State) : Answer :=
  unlessFaulted s <|
    match translate cw with
    | .ok n => returnValue s (.nibble n)
    | .error e => raiseInvalidLineCode e s

/-- `DECODE36` run by itself: it writes the spill registers and returns the bytes, or raises. -/
def execDecode36 (bits : List Bool) (s : State) : Answer :=
  unlessFaulted s <|
    match decode36 s.rx.spilledBits s.rx.spilledNibbles bits with
    | .error cw => raiseInvalidLineCode cw s
    | .ok d => .next ((s.setReceiver (spillStage d s.rx)).finish (some (.bytes d.1)))

/-- `PACK6` (R122). -/
def execPack6 (group : List Bool) (s : State) : Answer :=
  whenInDomain (.pack6 group) <| returnValue s (.codeword (pack6 group))

/-- `TRANSLATE` (R124). -/
def execTranslate (cw : Codeword) (s : State) : Answer :=
  translateCodeword cw s

/-- `PACK8` (R125). -/
def execPack8 (nibbles : List Nibble) (s : State) : Answer :=
  whenInDomain (.pack8 nibbles) <| returnValue s (.bytes (pack8 nibbles))

/-- `LUT36` (R80). -/
def execLut36 (cw : Codeword) (s : State) : Answer :=
  returnValue s (.lutEntry (lut36 cw))

end Sys2Proof.Machine
end

