-- ==== Sys2Proof/Machine/Codewords.lean ====
section
/-! DEFINITION. The 64 rows of the line code (`spec/30_encoding.md` R75, R80, R81): what `TRANSLATE` does with each word. A valid
word gives its nibble; an illegal one raises `InvalidLineCode` with itself as `faultInfo` (R124, R161). -/

namespace Sys2Proof.Machine

def execCw0Illegal (s : State) : Answer := translateCodeword 0 s
def execCw1Illegal (s : State) : Answer := translateCodeword 1 s
def execCw2Illegal (s : State) : Answer := translateCodeword 2 s
def execCw3Illegal (s : State) : Answer := translateCodeword 3 s
def execCw4Illegal (s : State) : Answer := translateCodeword 4 s
def execCw5Illegal (s : State) : Answer := translateCodeword 5 s
def execCw6Illegal (s : State) : Answer := translateCodeword 6 s
def execCw7Illegal (s : State) : Answer := translateCodeword 7 s

def execCw8Illegal (s : State) : Answer := translateCodeword 8 s
def execCw9Illegal (s : State) : Answer := translateCodeword 9 s
def execCw10Illegal (s : State) : Answer := translateCodeword 10 s
def execCw11 (s : State) : Answer := translateCodeword 11 s
def execCw12Illegal (s : State) : Answer := translateCodeword 12 s
def execCw13 (s : State) : Answer := translateCodeword 13 s
def execCw14 (s : State) : Answer := translateCodeword 14 s
def execCw15Illegal (s : State) : Answer := translateCodeword 15 s

def execCw16Illegal (s : State) : Answer := translateCodeword 16 s
def execCw17Illegal (s : State) : Answer := translateCodeword 17 s
def execCw18Illegal (s : State) : Answer := translateCodeword 18 s
def execCw19 (s : State) : Answer := translateCodeword 19 s
def execCw20Illegal (s : State) : Answer := translateCodeword 20 s
def execCw21Illegal (s : State) : Answer := translateCodeword 21 s
def execCw22 (s : State) : Answer := translateCodeword 22 s
def execCw23Illegal (s : State) : Answer := translateCodeword 23 s

def execCw24Illegal (s : State) : Answer := translateCodeword 24 s
def execCw25 (s : State) : Answer := translateCodeword 25 s
def execCw26 (s : State) : Answer := translateCodeword 26 s
def execCw27Illegal (s : State) : Answer := translateCodeword 27 s
def execCw28 (s : State) : Answer := translateCodeword 28 s
def execCw29Illegal (s : State) : Answer := translateCodeword 29 s
def execCw30Illegal (s : State) : Answer := translateCodeword 30 s
def execCw31Illegal (s : State) : Answer := translateCodeword 31 s

def execCw32Illegal (s : State) : Answer := translateCodeword 32 s
def execCw33Illegal (s : State) : Answer := translateCodeword 33 s
def execCw34Illegal (s : State) : Answer := translateCodeword 34 s
def execCw35 (s : State) : Answer := translateCodeword 35 s
def execCw36Illegal (s : State) : Answer := translateCodeword 36 s
def execCw37 (s : State) : Answer := translateCodeword 37 s
def execCw38 (s : State) : Answer := translateCodeword 38 s
def execCw39Illegal (s : State) : Answer := translateCodeword 39 s

def execCw40Illegal (s : State) : Answer := translateCodeword 40 s
def execCw41 (s : State) : Answer := translateCodeword 41 s
def execCw42Illegal (s : State) : Answer := translateCodeword 42 s
def execCw43Illegal (s : State) : Answer := translateCodeword 43 s
def execCw44 (s : State) : Answer := translateCodeword 44 s
def execCw45Illegal (s : State) : Answer := translateCodeword 45 s
def execCw46Illegal (s : State) : Answer := translateCodeword 46 s
def execCw47Illegal (s : State) : Answer := translateCodeword 47 s

def execCw48Illegal (s : State) : Answer := translateCodeword 48 s
def execCw49 (s : State) : Answer := translateCodeword 49 s
def execCw50 (s : State) : Answer := translateCodeword 50 s
def execCw51Illegal (s : State) : Answer := translateCodeword 51 s
def execCw52 (s : State) : Answer := translateCodeword 52 s
def execCw53Illegal (s : State) : Answer := translateCodeword 53 s
def execCw54Illegal (s : State) : Answer := translateCodeword 54 s
def execCw55Illegal (s : State) : Answer := translateCodeword 55 s

def execCw56Illegal (s : State) : Answer := translateCodeword 56 s
def execCw57Illegal (s : State) : Answer := translateCodeword 57 s
def execCw58Illegal (s : State) : Answer := translateCodeword 58 s
def execCw59Illegal (s : State) : Answer := translateCodeword 59 s
def execCw60Illegal (s : State) : Answer := translateCodeword 60 s
def execCw61Illegal (s : State) : Answer := translateCodeword 61 s
def execCw62Illegal (s : State) : Answer := translateCodeword 62 s
def execCw63Illegal (s : State) : Answer := translateCodeword 63 s

end Sys2Proof.Machine
end

