-- ==== Sys2Proof/Machine/FrameAssembler.lean ====
section
/-! DEFINITION. The frame-assembler unit (`spec/43_frame_assembler.md`): `CALCSIZE`, `ASSEMBLE`, `RESTART`. -/

namespace Sys2Proof.Machine

/-- `CALCSIZE(L)` (R131): `L + 2 + floor((L−9)/16)×2 + (2 if (L−9) mod 16 ≠ 0 else 0)`, on integers, floor toward −∞ (D4). -/
def calcSize (l : Byte) : Nat :=
  let lInt : Int := (l.toNat : Int)
  let partialBlock : Int := if (lInt - 9) % 16 ≠ 0 then 2 else 0
  (lInt + 2 + (lInt - 9) / 16 * 2 + partialBlock).toNat

/-- The length latched by `ASSEMBLE` (R130): kept once known, else taken from the first byte. -/
def latchLength (targetFrameLength : Nat) (acc : List Byte) : Nat :=
  match targetFrameLength, acc with
  | 0, l :: _ => calcSize l
  | t, _ => t

/-- `ASSEMBLE` (R130) on the working copies. -/
def assembleStage (bytes : List Byte) (rx : Receiver) : Receiver :=
  let acc := rx.accumulatedBytes ++ bytes
  let tfl := latchLength rx.targetFrameLength acc
  if frameReached tfl acc.length then
    { rx with accumulatedBytes := acc.take tfl, targetFrameLength := tfl, frameComplete := true }
  else
    { rx with accumulatedBytes := acc, targetFrameLength := tfl }

/-- `RESTART` (R132): all six receiver registers (D9). -/
def restartStage (_ : Receiver) : Receiver where
  samplingOffset := -1
  frameComplete := false
  accumulatedBytes := []
  targetFrameLength := 0
  spilledBits := []
  spilledNibbles := []

/-- `ASSEMBLE` run by itself. -/
def execAssemble (bytes : List Byte) (s : State) : Answer :=
  unlessFaulted s <| .next ((s.setReceiver (assembleStage bytes s.rx)).finish none)

/-- `RESTART` run by itself. When it runs inside `FEED` is `FEED`'s own test (R151). -/
def execRestart (s : State) : Answer :=
  unlessFaulted s <| .next ((s.setReceiver (restartStage s.rx)).finish none)

/-- `CALCSIZE` (R131). -/
def execCalcsize (l : Byte) (s : State) : Answer :=
  returnValue s (.size (calcSize l))

end Sys2Proof.Machine
end

