-- ==== Sys2Proof/Machine/Synchronizer.lean ====
section
/-! DEFINITION. The synchronizer unit (`spec/40_synchronizer.md`): `GENPREAMBLE`, `XCORR`, `SYNC`. -/

namespace Sys2Proof.Machine

/-- `GENPREAMBLE(bits, osf)` (R100): each element repeated `osf` times. -/
def genPreamble (bits : List Int) (osf : Nat) : List Int :=
  bits.flatMap fun b => List.replicate osf b

/-- `TEMPLATE = GENPREAMBLE(PREAMBLE_BITS, OSF)` (R8, R100). -/
def template (p : Params) : List Int :=
  genPreamble p.preambleBits p.osf

/-- `c[k]` of R101: the sum over `j` of `S(k − (Mt−1) + j) × tmpl[j]`. -/
def correlationAt (chunk tmpl : List Int) (k : Nat) : Int :=
  ((List.range tmpl.length).map fun (j : Nat) =>
    sampleAt chunk ((k : Int) - ((tmpl.length : Int) - 1) + (j : Int)) * tmpl.getD j 0).sum

/-- `XCORR(chunk, tmpl)` (R101): the full cross-correlation, `n + Mt − 1` exact sums. -/
def xcorr (chunk tmpl : List Int) : List Int :=
  (List.range (chunk.length + tmpl.length - 1)).map (correlationAt chunk tmpl)

/-- `k*` of R102: the smallest `k` with `abs(c[k]) ≥ abs(c[k'])` for every `k'`. -/
def peakIndex (c : List Int) : Nat :=
  c.findIdx fun v => c.all fun w => decide (w.natAbs ≤ v.natAbs)

/-- `samplingOffset'` of R102 for any template (D25): `k* + OSF/2`. -/
def syncOffset (chunk tmpl : List Int) (osf : Nat) : Int :=
  (peakIndex (xcorr chunk tmpl) : Int) + ((osf / 2 : Nat) : Int)

/-- `SYNC` (R102) on the working copies. -/
def syncStage (p : Params) (chunk : List Int) (rx : Receiver) : Receiver :=
  { rx with samplingOffset := syncOffset chunk (template p) p.osf }

/-- `SYNC` run by itself. When it runs inside `FEED` is `FEED`'s own test (R151). -/
def execSync (chunk : List Sample) (s : State) : Answer :=
  unlessFaulted s <| whenBuilt s <| whenInDomain (.sync chunk) <| whenSamplesFit chunk s <|
    .next ((s.setReceiver (syncStage s.cfg chunk s.rx)).finish none)

/-- `GENPREAMBLE` (R100). -/
def execGenpreamble (bits : List Int) (osf : Nat) (s : State) : Answer :=
  whenInDomain (.genpreamble bits osf) <| returnValue s (.integers (genPreamble bits osf))

/-- `XCORR` (R101). -/
def execXcorr (chunk tmpl : List Int) (s : State) : Answer :=
  whenInDomain (.xcorr chunk tmpl) <| returnValue s (.integers (xcorr chunk tmpl))

end Sys2Proof.Machine
end

