-- ==== Sys2Proof/Machine/TelegramParser.lean ====
section
/-! DEFINITION. The telegram-parser unit (`spec/44_telegram_parser.md`): the functions `parse`, `STRIP` and `serialize`. -/

namespace Sys2Proof.Machine

/-- The number of data blocks (R142): `floor((L−9)/16) + 1`, 0 when `L < 9`. -/
def blockCount (l : Byte) : Nat :=
  (((l.toNat : Int) - 9) / 16 + 1).toNat

/-- The data bytes of the last block (R142): `(L−9) mod 16` if non-zero, else 16. -/
def lastBlockSize (l : Byte) : Nat :=
  let r : Int := ((l.toNat : Int) - 9) % 16
  if r = 0 then 16 else r.toNat

/-- The data bytes of block `j`, clipped to the bytes there are; the two CRC bytes after them are never read (R76, R142). -/
def blockData (raw : List Byte) (l : Byte) (j : Nat) : List Byte :=
  let start := 12 + 18 * j
  clip raw start (start + if j + 1 < blockCount l then 16 else lastBlockSize l)

/-- `STRIP(raw, L)` (R142). -/
def strip (raw : List Byte) (l : Byte) : List Byte :=
  (List.range (blockCount l)).flatMap (blockData raw l)

/-- `parse(raw)` (R141): the telegram, or the byte count to raise `TruncatedFrame` with. -/
def parseRaw (raw : List Byte) : Except Nat Telegram :=
  if raw.length ≤ 12 then .error raw.length
  else .ok {
    lengthField := byteAt raw 0
    control := byteAt raw 1
    manufacturerId := halfAt raw 2
    address := ⟨byteAt raw 4, byteAt raw 5, byteAt raw 6, byteAt raw 7, byteAt raw 8, byteAt raw 9⟩
    headerCrc := halfAt raw 10
    controlInfo := byteAt raw 12
    payload := (strip raw (byteAt raw 0)).drop 1 }

/-- `serialize(t)` (R143), laid out as R79: no header CRC. -/
def noCrcExport (t : Telegram) : List Byte :=
  [t.lengthField, t.control] ++ halfBytes t.manufacturerId ++ addressBytes t.address ++ [t.controlInfo] ++ t.payload

/-- `TruncatedFrame(N)` (R162): `faultInfo` is the number of bytes there were. -/
def raiseTruncatedFrame (n : Nat) (s : State) : Answer :=
  .next (s.raise .truncatedFrame (BitVec.ofNat 8 n))

/-- `parse`, the function, run by itself: it returns the telegram and writes no telegram register, or raises (R141). -/
def execParseFn (raw : List Byte) (s : State) : Answer :=
  unlessFaulted s <|
    match parseRaw raw with
    | .error n => raiseTruncatedFrame n s
    | .ok t => returnValue s (.telegram t)

/-- `STRIP` (R142). -/
def execStrip (raw : List Byte) (l : Byte) (s : State) : Answer :=
  whenInDomain (.strip raw l) <| returnValue s (.bytes (strip raw l))

/-- `serialize`, the function (R143). -/
def execSerializeFn (t : Telegram) (s : State) : Answer :=
  whenInDomain (.serializeFn t) <| returnValue s (.bytes (noCrcExport t))

end Sys2Proof.Machine
end

