-- ==== Sys2Proof/Machine/TimingRecovery.lean ====
section
/-! DEFINITION. The timing-recovery unit (`spec/41_timing_recovery.md`): `SAMPLE`, `RETIME`. -/

namespace Sys2Proof.Machine

/-- The bit decision (R110): value > 0 is bit 1, value ≤ 0 is bit 0. -/
def bitOf (x : Sample) : Bool :=
  decide (0 < x)

/-- `SAMPLE` (R110): one bit at every `osf`-th sample, the first after `skip` samples; the sampled indices are `skip`,
`skip + osf`, `skip + 2×osf`, ... below `n`. -/
def sampleBits (osf : Nat) : Nat → List Sample → List Bool
  | _, [] => []
  | 0, x :: xs => bitOf x :: sampleBits osf (osf - 1) xs
  | skip + 1, _ :: xs => sampleBits osf skip xs

/-- `RETIME` (R111), its three lines. -/
def retimeOffset (n : Nat) (s : Int) (osf : Nat) : Int :=
  let half : Int := ((osf / 2 : Nat) : Int)
  let l : Int := (n : Int) - s - half
  let newOffset : Int := ceilDiv l osf * osf - l
  (newOffset + half) % osf

/-- `RETIME` on the working copies. -/
def retimeStage (p : Params) (n : Nat) (rx : Receiver) : Receiver :=
  { rx with samplingOffset := retimeOffset n rx.samplingOffset p.osf }

/-- `SAMPLE` run by itself: it writes nothing and returns the bits. -/
def execSample (chunk : List Sample) (s : State) : Answer :=
  unlessFaulted s <| whenBuilt s <| whenInDomain (.sample chunk) <| whenSamplesFit chunk s <| whenOffset s.rx <|
    returnValue s (.bits (sampleBits s.cfg.osf s.rx.samplingOffset.toNat chunk))

/-- `RETIME` run by itself. -/
def execRetime (n : Nat) (s : State) : Answer :=
  unlessFaulted s <| whenBuilt s <| whenInDomain (.retime n) <| whenOffset s.rx <|
    .next ((s.setReceiver (retimeStage s.cfg n s.rx)).finish none)

end Sys2Proof.Machine
end

