-- ==== Sys2Proof/Machine/HostCommands.lean ====
section
/-! DEFINITION. The host commands (`spec/45_host_commands.md`): `FEED`, `PARSE`, `SERIALIZE`, `RESET`, and the two
pseudo-operations of `30_encoding.md` R85. -/

namespace Sys2Proof.Machine

/-- `RESTART` if a frame is complete, then `SYNC` if the working offset is −1: the first two stages of `FEED` (R151). -/
def alignStages (p : Params) (chunk : List Sample) (rx : Receiver) : Receiver :=
  let restarted := if rx.frameComplete then restartStage rx else rx
  if restarted.synchronized then restarted else syncStage p chunk restarted

/-- `SAMPLE`, `RETIME`, `DECODE36` and `ASSEMBLE` on the working copies, in that order (R151): the receiver registers to commit,
or the codeword that `DECODE36` raises with. -/
def receiveStages (p : Params) (chunk : List Sample) (rx : Receiver) : Except Codeword Receiver :=
  let bits := sampleBits p.osf rx.samplingOffset.toNat chunk
  let retimed := retimeStage p chunk.length rx
  match decode36 retimed.spilledBits retimed.spilledNibbles bits with
  | .error cw => .error cw
  | .ok d => .ok (assembleStage d.1 (spillStage d retimed))

/-- All the stages of `FEED` (R151). -/
def feedStages (p : Params) (chunk : List Sample) (rx : Receiver) : Except Codeword Receiver :=
  receiveStages p chunk (alignStages p chunk rx)

/-- The work of `FEED` on a non-empty chunk: commit what the stages leave, or enter the fault and commit nothing (R150, R151). -/
def feedChunk (chunk : List Sample) (s : State) : Answer :=
  let aligned := alignStages s.cfg chunk s.rx
  whenOffset aligned <|
    match receiveStages s.cfg chunk aligned with
    | .error cw => raiseInvalidLineCode cw s
    | .ok rx => .next ((s.setReceiver rx).finish none)

/-- `FEED chunk` (R151). -/
def feedCommand (chunk : List Sample) (s : State) : Answer :=
  unlessFaulted s <| unlessOverlong s.cfg.chunkMax chunk.length s <|
    if chunk = [] then .next (s.finish none)
    else whenBuilt s <| whenSamplesFit chunk s <| feedChunk chunk s

/-- `PARSE raw` (R152). -/
def parseCommand (raw : List Byte) (s : State) : Answer :=
  unlessFaulted s <| unlessOverlong s.cfg.rawMax raw.length s <|
    match parseRaw raw with
    | .error n => raiseTruncatedFrame n s
    | .ok t => .next ((s.setTelegram t).finish none)

/-- `FEED` (R151). -/
def execFeed (chunk : List Sample) (s : State) : Answer :=
  feedCommand chunk s

/-- `PARSE` (R152). -/
def execParse (raw : List Byte) (s : State) : Answer :=
  parseCommand raw s

/-- `SERIALIZE` (R153): refused while the telegram registers hold no value, else the export, writing nothing. -/
def execSerialize (s : State) : Answer :=
  unlessFaulted s <|
    match s.telegram with
    | none => .next s.turnAway
    | some t => returnValue s (.bytes (noCrcExport t))

/-- `RESET` (R154): never refused. -/
def execReset (s : State) : Answer :=
  .next (s.clearAll.finish none)

/-- `NOPFEED` (R85): `FEED []`. -/
def execNopfeed (s : State) : Answer :=
  feedCommand [] s

/-- `PARSEFRAME` (R85): `PARSE` with `raw = accumulatedBytes` as it stands. -/
def execParseframe (s : State) : Answer :=
  parseCommand (currentFrame s) s

end Sys2Proof.Machine
end

