-- ==== Sys2Proof/Machine/Dispatch.lean ====
section
/-! DEFINITION. The dispatch: one arm for each row of the opcode table. -/

namespace Sys2Proof.Machine

def exec (i : Instr) (s : State) : Host.Outcome State Fault Refusal :=
  match i with
  | .feed chunk => Sys2Proof.Machine.execFeed chunk s
  | .parse raw => Sys2Proof.Machine.execParse raw s
  | .serialize => Sys2Proof.Machine.execSerialize s
  | .reset => Sys2Proof.Machine.execReset s
  | .nopfeed => Sys2Proof.Machine.execNopfeed s
  | .parseframe => Sys2Proof.Machine.execParseframe s
  | .restart => Sys2Proof.Machine.execRestart s
  | .sync chunk => Sys2Proof.Machine.execSync chunk s
  | .sample chunk => Sys2Proof.Machine.execSample chunk s
  | .retime n => Sys2Proof.Machine.execRetime n s
  | .decode36 bits => Sys2Proof.Machine.execDecode36 bits s
  | .assemble bytes => Sys2Proof.Machine.execAssemble bytes s
  | .pack6 group => Sys2Proof.Machine.execPack6 group s
  | .translate cw => Sys2Proof.Machine.execTranslate cw s
  | .pack8 nibbles => Sys2Proof.Machine.execPack8 nibbles s
  | .genpreamble bits osf => Sys2Proof.Machine.execGenpreamble bits osf s
  | .xcorr chunk tmpl => Sys2Proof.Machine.execXcorr chunk tmpl s
  | .lut36 cw => Sys2Proof.Machine.execLut36 cw s
  | .calcsize l => Sys2Proof.Machine.execCalcsize l s
  | .parseFn raw => Sys2Proof.Machine.execParseFn raw s
  | .strip raw l => Sys2Proof.Machine.execStrip raw l s
  | .serializeFn t => Sys2Proof.Machine.execSerializeFn t s
  | .cw0Illegal => Sys2Proof.Machine.execCw0Illegal s
  | .cw1Illegal => Sys2Proof.Machine.execCw1Illegal s
  | .cw2Illegal => Sys2Proof.Machine.execCw2Illegal s
  | .cw3Illegal => Sys2Proof.Machine.execCw3Illegal s
  | .cw4Illegal => Sys2Proof.Machine.execCw4Illegal s
  | .cw5Illegal => Sys2Proof.Machine.execCw5Illegal s
  | .cw6Illegal => Sys2Proof.Machine.execCw6Illegal s
  | .cw7Illegal => Sys2Proof.Machine.execCw7Illegal s
  | .cw8Illegal => Sys2Proof.Machine.execCw8Illegal s
  | .cw9Illegal => Sys2Proof.Machine.execCw9Illegal s
  | .cw10Illegal => Sys2Proof.Machine.execCw10Illegal s
  | .cw11 => Sys2Proof.Machine.execCw11 s
  | .cw12Illegal => Sys2Proof.Machine.execCw12Illegal s
  | .cw13 => Sys2Proof.Machine.execCw13 s
  | .cw14 => Sys2Proof.Machine.execCw14 s
  | .cw15Illegal => Sys2Proof.Machine.execCw15Illegal s
  | .cw16Illegal => Sys2Proof.Machine.execCw16Illegal s
  | .cw17Illegal => Sys2Proof.Machine.execCw17Illegal s
  | .cw18Illegal => Sys2Proof.Machine.execCw18Illegal s
  | .cw19 => Sys2Proof.Machine.execCw19 s
  | .cw20Illegal => Sys2Proof.Machine.execCw20Illegal s
  | .cw21Illegal => Sys2Proof.Machine.execCw21Illegal s
  | .cw22 => Sys2Proof.Machine.execCw22 s
  | .cw23Illegal => Sys2Proof.Machine.execCw23Illegal s
  | .cw24Illegal => Sys2Proof.Machine.execCw24Illegal s
  | .cw25 => Sys2Proof.Machine.execCw25 s
  | .cw26 => Sys2Proof.Machine.execCw26 s
  | .cw27Illegal => Sys2Proof.Machine.execCw27Illegal s
  | .cw28 => Sys2Proof.Machine.execCw28 s
  | .cw29Illegal => Sys2Proof.Machine.execCw29Illegal s
  | .cw30Illegal => Sys2Proof.Machine.execCw30Illegal s
  | .cw31Illegal => Sys2Proof.Machine.execCw31Illegal s
  | .cw32Illegal => Sys2Proof.Machine.execCw32Illegal s
  | .cw33Illegal => Sys2Proof.Machine.execCw33Illegal s
  | .cw34Illegal => Sys2Proof.Machine.execCw34Illegal s
  | .cw35 => Sys2Proof.Machine.execCw35 s
  | .cw36Illegal => Sys2Proof.Machine.execCw36Illegal s
  | .cw37 => Sys2Proof.Machine.execCw37 s
  | .cw38 => Sys2Proof.Machine.execCw38 s
  | .cw39Illegal => Sys2Proof.Machine.execCw39Illegal s
  | .cw40Illegal => Sys2Proof.Machine.execCw40Illegal s
  | .cw41 => Sys2Proof.Machine.execCw41 s
  | .cw42Illegal => Sys2Proof.Machine.execCw42Illegal s
  | .cw43Illegal => Sys2Proof.Machine.execCw43Illegal s
  | .cw44 => Sys2Proof.Machine.execCw44 s
  | .cw45Illegal => Sys2Proof.Machine.execCw45Illegal s
  | .cw46Illegal => Sys2Proof.Machine.execCw46Illegal s
  | .cw47Illegal => Sys2Proof.Machine.execCw47Illegal s
  | .cw48Illegal => Sys2Proof.Machine.execCw48Illegal s
  | .cw49 => Sys2Proof.Machine.execCw49 s
  | .cw50 => Sys2Proof.Machine.execCw50 s
  | .cw51Illegal => Sys2Proof.Machine.execCw51Illegal s
  | .cw52 => Sys2Proof.Machine.execCw52 s
  | .cw53Illegal => Sys2Proof.Machine.execCw53Illegal s
  | .cw54Illegal => Sys2Proof.Machine.execCw54Illegal s
  | .cw55Illegal => Sys2Proof.Machine.execCw55Illegal s
  | .cw56Illegal => Sys2Proof.Machine.execCw56Illegal s
  | .cw57Illegal => Sys2Proof.Machine.execCw57Illegal s
  | .cw58Illegal => Sys2Proof.Machine.execCw58Illegal s
  | .cw59Illegal => Sys2Proof.Machine.execCw59Illegal s
  | .cw60Illegal => Sys2Proof.Machine.execCw60Illegal s
  | .cw61Illegal => Sys2Proof.Machine.execCw61Illegal s
  | .cw62Illegal => Sys2Proof.Machine.execCw62Illegal s
  | .cw63Illegal => Sys2Proof.Machine.execCw63Illegal s

end Sys2Proof.Machine
end

