-- ==== Sys2Proof/Machine/Step.lean ====
section
/-! DEFINITION. The step: take the next transfer the host presents, decode it, run it (`spec/20_memory.md` R66). The block has no
program counter and fetches nothing (R28); what takes the place of a program is the host's commands in the order issued. -/

namespace Sys2Proof.Machine

/-- One step. With nothing presented the block is idle and holds its registers (R171, R180). -/
def step (s : State) : Host.Outcome State Fault Refusal :=
  match takeTransfer s with
  | none => .next s
  | some (t, waiting) =>
    match decode t with
    | .ok i => exec i waiting
    | .error e => .refused (.undecodable e)

/-- `s` with the instruction of an opcode-table word presented next (operands empty). A word that no row has presents nothing. -/
def State.withFetchWord (s : State) (nbits w : Nat) : State :=
  match tableTransfer nbits w with
  | none => s
  | some t => presentNext s t

end Sys2Proof.Machine
end

