-- ==== Sys2Proof/Machine/Listing.lean ====
section
/-! DEFINITION. The listing form of `spec/30_encoding.md` R84 and R85: one command a line, read into the transfer it stands for. -/

namespace Sys2Proof.Machine

/-- The line without its comment (R84: a `;` starts one). -/
def withoutComment (line : List Char) : List Char :=
  line.takeWhile (· ≠ ';')

/-- The words of a text, separated by the characters that `sep` accepts; `word` holds the word being read, last character first. -/
def wordsGo (sep : Char → Bool) : List Char → List Char → List (List Char)
  | word, [] => if word.isEmpty then [] else [word.reverse]
  | word, c :: rest =>
    if sep c then (if word.isEmpty then wordsGo sep [] rest else word.reverse :: wordsGo sep [] rest)
    else wordsGo sep (c :: word) rest

/-- The words of a text. -/
def wordsOf (sep : Char → Bool) (text : List Char) : List (List Char) :=
  wordsGo sep [] text

/-- One character of a sign string (R84): `+` is +1, `-` is −1, `0` is 0. -/
def signSample (c : Char) : Option Sample :=
  if c = '+' then some 1 else if c = '-' then some (-1) else if c = '0' then some 0 else none

/-- A decimal digit. -/
def digitOf (c : Char) : Option Nat :=
  if '0'.toNat ≤ c.toNat ∧ c.toNat ≤ '9'.toNat then some (c.toNat - '0'.toNat) else none

/-- A two-digit hexadecimal number's digit. -/
def hexDigitOf (c : Char) : Option Nat :=
  if 'A'.toNat ≤ c.toNat ∧ c.toNat ≤ 'F'.toNat then some (c.toNat - 'A'.toNat + 10)
  else if 'a'.toNat ≤ c.toNat ∧ c.toNat ≤ 'f'.toNat then some (c.toNat - 'a'.toNat + 10)
  else digitOf c

/-- A natural number in decimal. -/
def naturalOf (word : List Char) : Option Nat :=
  match word.mapM digitOf with
  | some (d :: ds) => some ((d :: ds).foldl (fun v x => 10 * v + x) 0)
  | _ => none

/-- A sample as a decimal integer. -/
def integerOf : List Char → Option Sample
  | '-' :: digits => (naturalOf digits).map fun n => -(n : Int)
  | digits => (naturalOf digits).map fun n => (n : Int)

/-- A byte in two-digit hexadecimal. -/
def byteOf : List Char → Option Byte
  | [hi, lo] => (hexDigitOf hi).bind fun h => (hexDigitOf lo).map fun l => BitVec.ofNat 8 (16 * h + l)
  | _ => none

/-- The text up to the closing character `close`, when nothing but blanks follows it. -/
def upTo (close : Char) (text : List Char) : Option (List Char) :=
  match text.dropWhile (· ≠ close) with
  | c :: rest => if c = close ∧ rest.all (· = ' ') then some (text.takeWhile (· ≠ close)) else none
  | [] => none

/-- The chunk of a `FEED` line: a bracketed list of integers or a quoted sign string. -/
def chunkOf (operand : List Char) : Option (List Sample) :=
  match operand.dropWhile (· = ' ') with
  | '[' :: rest => (upTo ']' rest).bind fun inside => (wordsOf (fun c => c = ',' || c = ' ') inside).mapM integerOf
  | '"' :: rest => (upTo '"' rest).bind fun inside => inside.mapM signSample
  | _ => none

/-- The bytes of a `PARSE` line. -/
def rawOf (operand : List Char) : Option (List Byte) :=
  (wordsOf (· = ' ') operand).mapM byteOf

/-- A line with no operand. -/
def bare (operand : List Char) (t : Transfer) : Option Transfer :=
  if operand.all (· = ' ') then some t else none

/-- One line of a listing (R84, R85). `none` for a line that is no command. -/
def readLine (line : List Char) : Option Transfer :=
  let text := (withoutComment line).dropWhile (· = ' ')
  let operand := text.dropWhile (· ≠ ' ')
  match text.takeWhile (· ≠ ' ') with
  | ['F', 'E', 'E', 'D'] => (chunkOf operand).map fun c => .command 0 (.chunk c)
  | ['P', 'A', 'R', 'S', 'E'] => (rawOf operand).map fun r => .command 1 (.raw r)
  | ['S', 'E', 'R', 'I', 'A', 'L', 'I', 'Z', 'E'] => bare operand (.command 2 .none)
  | ['R', 'E', 'S', 'E', 'T'] => bare operand (.command 3 .none)
  | ['N', 'O', 'P', 'F', 'E', 'E', 'D'] => bare operand (.pseudo .nopfeed)
  | ['P', 'A', 'R', 'S', 'E', 'F', 'R', 'A', 'M', 'E'] => bare operand (.pseudo .parseframe)
  | _ => none

/-- A listing (R84): its lines in order, blank and comment lines left out. `none` if some other line is no command. -/
def readListing : List (List Char) → Option (List Transfer)
  | [] => some []
  | line :: rest =>
    if (withoutComment line).all (· = ' ') then readListing rest
    else (readLine line).bind fun t => (readListing rest).map fun ts => t :: ts

/-- A listing presented to the block after what is already waiting. -/
def presentListing (s : State) (lines : List (List Char)) : Option State :=
  (readListing lines).map fun ts => { s with pending := s.pending ++ ts }

end Sys2Proof.Machine
end

