-- ==== Sys2Proof/Machine/Platform.lean ====
section
/-! DEFINITION. Several instances (`spec/20_memory.md` R71, `60_exceptions.md` R170): a platform is a list of instances, each with a
state and parameters of its own. They share the constant tables only, so a step of one is a step of that one state. -/

namespace Sys2Proof.Machine

/-- The instances of a platform. Position in the list is the model's name for an instance; the block has no identifiers (R170). -/
abbrev Platform := List State

/-- One step of the instance at position `k`, the others as they were. -/
def stepInstance (k : Nat) (p : Platform) : Host.Outcome Platform Fault Refusal :=
  match p[k]? with
  | none => .next p
  | some s =>
    match step s with
    | .next t => .next (p.set k t)
    | .fault f => .fault f
    | .refused r => .refused r

end Sys2Proof.Machine
end

