-- ==== Sys2Proof/Machine/Transmitter.lean ====
section
/-! DEFINITION. What a transmitter puts on the air, as far as the spec says it: the table of `spec/30_encoding.md` R75 read the other
way (`91_not_in_source.md` N17) and `OSF` equal samples a symbol (R17, `95_test_vectors.md` Part 3). No part of the block: statements
about reception speak of it. -/

namespace Sys2Proof.Machine

/-- The codeword of a nibble (R75, N17). -/
def codewordOf (n : Nibble) : Codeword :=
  ((lineCode.find? fun e => e.2 == n).map Prod.fst).getD 0

/-- The six bits of a codeword in time order, most significant first (R55, R74). -/
def codewordBits (cw : Codeword) : List Bool :=
  [cw.getLsbD 5, cw.getLsbD 4, cw.getLsbD 3, cw.getLsbD 2, cw.getLsbD 1, cw.getLsbD 0]

/-- The twelve line-code bits of a byte, the high nibble first (R56, R82). -/
def byteBits (b : Byte) : List Bool :=
  codewordBits (codewordOf (b.extractLsb' 4 4)) ++ codewordBits (codewordOf (b.extractLsb' 0 4))

/-- The line-code bits of a frame in frame order (R57). -/
def frameBits (frame : List Byte) : List Bool :=
  frame.flatMap byteBits

/-- The samples of a bit sequence at amplitude `a`: `osf` equal samples a symbol, positive for bit 1 (R17, R182 c). -/
def symbolSamples (osf : Nat) (a : Int) (bits : List Bool) : List Sample :=
  bits.flatMap fun b => List.replicate osf (if b then a else -a)

end Sys2Proof.Machine
end

