-- ==== Sys2Proof/Safety.lean ====
section
/-! DEFINITION. What counts as a safe run: the invariants of `spec/10_state.md` R27 with the facts about the other registers that the
rules state, and the premise of `60_exceptions.md` R165 that claims about a run take. -/

namespace Sys2Proof.Machine

/-- R27 (a) to (h), in order, for an instance with parameters `p`. -/
abbrev ReceiverOk (p : Params) (rx : Receiver) : Prop :=
  (rx.samplingOffset = -1 ∨ 0 ≤ rx.samplingOffset ∧ rx.samplingOffset < p.osf) ∧
  rx.spilledBits.length < 6 ∧
  rx.spilledNibbles.length < 2 ∧
  (rx.targetFrameLength ≠ 0 → rx.accumulatedBytes.length ≤ rx.targetFrameLength) ∧
  (rx.targetFrameLength = 0 ↔ rx.accumulatedBytes = []) ∧
  (rx.frameComplete = true ↔ rx.targetFrameLength ≠ 0 ∧ rx.accumulatedBytes.length = rx.targetFrameLength) ∧
  (rx.targetFrameLength ≠ 0 → ∃ l ∈ rx.accumulatedBytes.head?, rx.targetFrameLength = calcSize l) ∧
  (rx.samplingOffset = -1 → rx.accumulatedBytes = [] ∧ rx.spilledBits = [] ∧ rx.spilledNibbles = [])

/-- R30 and R160: the code 3 is never produced (U8); `faultInfo` is 0 while `fault = 0`, an illegal codeword for
`InvalidLineCode` and a byte count of at most 12 for `TruncatedFrame`. -/
abbrev FaultOk (s : State) : Prop :=
  s.fault ≠ 3 ∧
  (s.fault = 0 → s.faultInfo = 0) ∧
  (s.fault = FaultKind.invalidLineCode.code → s.faultInfo.toNat < 64 ∧ lut36 (s.faultInfo.setWidth 6) = none) ∧
  (s.fault = FaultKind.truncatedFrame.code → s.faultInfo.toNat ≤ 12)

/-- The telegram record fits its registers (R33). -/
abbrev TelegramOk (s : State) : Prop :=
  ∀ t ∈ s.telegram, t.payload.length ≤ 255

/-- The invariant of a block at a command boundary. -/
abbrev Inv (s : State) : Prop :=
  s.cfg.Valid ∧ ReceiverOk s.cfg s.rx ∧ FaultOk s ∧ TelegramOk s

/-- The premise of R165: the run has met no fault. -/
abbrev FaultFree (s : State) : Prop :=
  s.fault = 0

/-- A chunk that the sample input can carry (R73), with at least one sample. -/
abbrev ChunkOk (p : Params) (chunk : List Sample) : Prop :=
  chunk ≠ [] ∧ ∀ x ∈ chunk, sampleFits p x = true

/-- The states and chunks on which `FEED` does its work (R151, R155): no fault, a chunk that is not empty, fits `CHUNK_MAX` and
`SAMPLE_W`, a block that exists, and an offset that R21 allows (or one that `RESTART` is about to replace). -/
abbrev FeedAccepted (chunk : List Sample) (s : State) : Prop :=
  s.fault = 0 ∧ s.cfg.Valid ∧ ChunkOk s.cfg chunk ∧ (∀ m ∈ s.cfg.chunkMax, chunk.length ≤ m) ∧
    (-1 ≤ s.rx.samplingOffset ∨ s.rx.frameComplete = true)

/-- The states and operands on which `PARSE` does its work (R152, R155). -/
abbrev ParseAccepted (raw : List Byte) (s : State) : Prop :=
  s.fault = 0 ∧ ∀ m ∈ s.cfg.rawMax, raw.length ≤ m

end Sys2Proof.Machine
end

