-- ==== Sys2Proof/Certificates/Slice0/Obligations.lean ====
section
/-! DEFINITION. The statements for the provers, in the order of the spec's files. Each docstring names the rule it formalises. A
premise `s.fault = 0` is R155 (a): a held block refuses (`HeldOrOverlongCommandIsRefused` says what happens then). The fields
`outcome`, `result` and `pending` are where the model shows the outputs and the input of R157 (notes/assumptions/2.md, 3.md), and a
stage, step or function run by itself is the model's way to show one rule alone (notes/assumptions/5.md). -/

open Sys2Proof Sys2Proof.Machine

/-! ### Terms the statements use -/

/-- Codeword `g` of a bit stream (R74, R121): six bits from index `6g`, the first of them worth 32. -/
def Sys2Proof.Spec.codewordAt (stream : List Bool) (g : Nat) : Codeword :=
  BitVec.ofNat 6 (32 * (stream.getD (6 * g) false).toNat + 16 * (stream.getD (6 * g + 1) false).toNat +
    8 * (stream.getD (6 * g + 2) false).toNat + 4 * (stream.getD (6 * g + 3) false).toNat +
    2 * (stream.getD (6 * g + 4) false).toNat + (stream.getD (6 * g + 5) false).toNat)

/-- All the codewords that a `DECODE36` sees (R120 steps 1 to 3): the one held back, then those of the stream. -/
def Sys2Proof.Spec.codewords (rx : Receiver) (bits : List Bool) : List Codeword :=
  rx.spilledNibbles ++
    (List.range ((rx.spilledBits ++ bits).length / 6)).map (Sys2Proof.Spec.codewordAt (rx.spilledBits ++ bits))

/-- The codewords that it translates (R123, R124): all of them, but for the last when their number is odd. -/
def Sys2Proof.Spec.translated (rx : Receiver) (bits : List Bool) : List Codeword :=
  (Sys2Proof.Spec.codewords rx bits).take (2 * ((Sys2Proof.Spec.codewords rx bits).length / 2))

/-- The number of data bytes that the length field lets `STRIP` take when the input is long enough (R142). -/
def Sys2Proof.Spec.dataBytes (l : Byte) : Nat :=
  if l.toNat < 9 then 0 else 16 * ((l.toNat - 9) / 16) + (if (l.toNat - 9) % 16 = 0 then 16 else (l.toNat - 9) % 16)

/-- The data bytes of a raw frame by position (R76, R142): data byte `i` is in block `i / 16`, which starts at `12 + 18×(i / 16)`. -/
def Sys2Proof.Spec.data (raw : List Byte) (l : Byte) : List Byte :=
  (List.range (Sys2Proof.Spec.dataBytes l)).filterMap fun i => raw[12 + 18 * (i / 16) + i % 16]?

/-! ### State, reset, encodings (`10_state.md`, `30_encoding.md`, `70_reset_and_hazards.md`) -/

/-- R37, R180: every register of a new instance has the value of the table, `telegramValid = 0` and the telegram registers hold no
value. The parameters of `State.reset` are the model's choice (notes/assumptions/1.md) and are not part of the claim. -/
def Obligations.NewInstanceHoldsTheResetValues : Prop :=
  ∀ s : State, (s = State.reset ∨ ∃ cfg, s = State.resetWith cfg) →
    s.rx.samplingOffset = -1 ∧ s.rx.targetFrameLength = 0 ∧ s.rx.frameComplete = false ∧ s.rx.accumulatedBytes = [] ∧
    s.rx.spilledBits = [] ∧ s.rx.spilledNibbles = [] ∧ s.fault = 0 ∧ s.faultInfo = 0 ∧ s.telegramValid = false ∧
    s.telegram = none

/-- R154: `RESET` is never refused, puts every register at its reset value, in every state, and is the same as creating a new instance
with the same parameters (the model's own fields `pending` and `outcome` apart); it is the only command accepted while `fault ≠ 0`. -/
def Obligations.ResetRestoresEveryRegister : Prop :=
  ∀ s : State,
    exec .reset s =
      .next { s with
        rx := { samplingOffset := -1, targetFrameLength := 0, frameComplete := false, accumulatedBytes := [],
                spilledBits := [], spilledNibbles := [] },
        fault := 0, faultInfo := 0, telegram := none, outcome := some .done, result := none } ∧
    exec .reset s = .next { State.resetWith s.cfg with pending := s.pending, outcome := some .done } ∧
    (s.fault ≠ 0 → ∀ (cmd : CommandCode) (o : Operand) (i : Instr), decode (.command cmd o) = .ok i → cmd ≠ 3 →
      ∃ t, exec i s = .next t ∧ t.outcome = some .refused)

/-- R85: `NOPFEED` is `FEED []` and `PARSEFRAME` is `PARSE` with `raw = accumulatedBytes` as it stands. -/
def Obligations.PseudoOperationsAddNoBehaviour : Prop :=
  ∀ s : State, exec .nopfeed s = exec (.feed []) s ∧ exec .parseframe s = exec (.parse s.rx.accumulatedBytes) s

/-- R83, R75, R81: words written out from the spec's tables decode to the rows they stand for. The spec's words are 2 and 6 bits
wide; that a word of 8 bits from 4 on is read as a line-code word, as in the last clause, is the model's choice
(notes/assumptions/4.md). -/
def Obligations.TableWordsDecodeToTheirRows : Prop :=
  decodeTableWord 2 0b00 = some (.feed []) ∧ decodeTableWord 2 0b01 = some (.parse []) ∧
  decodeTableWord 2 0b10 = some .serialize ∧ decodeTableWord 2 0b11 = some .reset ∧
  decodeTableWord 6 0b010110 = some .cw22 ∧ decodeTableWord 6 0b101001 = some .cw41 ∧
  decodeTableWord 6 0b000111 = some .cw7Illegal ∧ decodeTableWord 6 0b111111 = some .cw63Illegal ∧
  decodeTableWord 8 0b00111000 = some .cw56Illegal

/-- R83, R74: encoding a well-formed instruction and decoding the transfer gives the instruction back, with every operand. That a
line-code word and a pseudo-operation are transfers of their own is the model's choice (notes/assumptions/4.md, 13.md). -/
def Obligations.DecodingAnEncodedInstructionGivesItBack : Prop :=
  ∀ (i : Instr) (t : Transfer), i.wellFormed = true → encode i = some t → decode t = .ok i

/-- R83, U19: every transfer that decodes is the encoding of exactly the instruction it decodes to; a command with the kind of operand
that R83 lists is one of the four, and no stage or function has a code. That a code with an operand of another kind decodes to nothing
is the model's choice (notes/assumptions/11.md), and so is that line-code words and pseudo-operations are transfers of their own
(notes/assumptions/4.md, 13.md). -/
def Obligations.EveryTransferIsOneInstruction : Prop :=
  (∀ (t : Transfer) (i : Instr), decode t = .ok i → encode i = some t ∧ i.wellFormed = true) ∧
  ∀ (cmd : CommandCode) (o : Operand),
    ((∃ i, decode (.command cmd o) = .ok i) ↔
      (cmd = 0 ∧ ∃ c, o = .chunk c) ∨ (cmd = 1 ∧ ∃ r, o = .raw r) ∨ (cmd = 2 ∧ o = .none) ∨ (cmd = 3 ∧ o = .none)) ∧
    (∀ c, decode (.command 0 (.chunk c)) = .ok (.feed c)) ∧ (∀ r, decode (.command 1 (.raw r)) = .ok (.parse r)) ∧
    decode (.command 2 .none) = .ok .serialize ∧ decode (.command 3 .none) = .ok .reset ∧
    ∀ i, decode (.command cmd o) = .ok i → (∃ c, i = .feed c) ∨ (∃ r, i = .parse r) ∨ i = .serialize ∨ i = .reset

/-- R66: a step takes the first transfer presented, runs the instruction it decodes to on the state in which only that transfer is
gone, and does nothing else. The list of transfers and the idle step when nothing is presented are the model's choice
(notes/assumptions/2.md), and so is that a transfer that does not decode stops the step by name (notes/assumptions/11.md). -/
def Obligations.StepRunsTheDecodedInstruction : Prop :=
  ∀ (s : State) (t : Transfer) (rest : List Transfer), s.pending = t :: rest →
    (∀ i, decode t = .ok i → step s = exec i { s with pending := rest }) ∧
    (∀ e, decode t = .error e → step s = .refused (.undecodable e)) ∧
    step { s with pending := [] } = .next { s with pending := [] }

/-- R84: a `FEED` line with a sign string reads as `FEED` of those samples, whatever their number. -/
def Obligations.SignStringLinesReadAsFeed : Prop :=
  ∀ signs : List Char, (∀ c ∈ signs, c = '+' ∨ c = '-' ∨ c = '0') →
    readLine (['F', 'E', 'E', 'D', ' ', '"'] ++ signs ++ ['"']) =
      some (.command 0 (.chunk (signs.map fun c => if c = '+' then 1 else if c = '-' then -1 else 0)))

/-! ### The synchronizer (`40_synchronizer.md`) -/

/-- R100: `GENPREAMBLE` completes on a positive factor and returns `m × osf` values, value `j` being `bits[floor(j / osf)]`; the
template
of an instance is what it returns for `PREAMBLE_BITS` and `OSF`.
Running it by itself is the model's choice (notes/assumptions/5.md). -/
def Obligations.GenpreambleRepeatsEachElement : Prop :=
  ∀ (s : State) (bits : List Int) (osf : Nat), 0 < osf →
    ∃ out, exec (.genpreamble bits osf) s =
        .next { s with outcome := some .done, result := some (.integers out) } ∧
      out.length = bits.length * osf ∧ (∀ j, j < out.length → out[j]? = bits[j / osf]?) ∧
      (bits = s.cfg.preambleBits → osf = s.cfg.osf → out = template s.cfg)

/-- R101: `XCORR` completes on non-empty operands and returns the `n + Mt − 1` sums of the rule, samples outside the chunk being 0.
Running it by itself is the model's choice (notes/assumptions/5.md). -/
def Obligations.XcorrReturnsTheFullCorrelation : Prop :=
  ∀ (s : State) (chunk tmpl : List Int), chunk ≠ [] → tmpl ≠ [] →
    ∃ c, exec (.xcorr chunk tmpl) s = .next { s with outcome := some .done, result := some (.integers c) } ∧
      c.length = chunk.length + tmpl.length - 1 ∧
      ∀ k, k < c.length → c.getD k 0 = ∑ j ∈ Finset.range tmpl.length,
        (if tmpl.length ≤ k + j + 1 then chunk.getD (k + j + 1 - tmpl.length) 0 else 0) * tmpl.getD j 0

/-- R102: `SYNC` completes and writes `k* + OSF/2`, `k*` being the first index of the greatest magnitude in the correlation of the
chunk with the template, and nothing else; the offset is in the range that corner case (c) gives.
Running it by itself is the model's choice (notes/assumptions/5.md). -/
def Obligations.SyncPointsBehindTheFirstPeak : Prop :=
  ∀ (s : State) (chunk : List Sample), s.fault = 0 → s.cfg.Valid → ChunkOk s.cfg chunk →
    ∃ k : Nat, k < chunk.length + (template s.cfg).length - 1 ∧
      (∀ k', k' < chunk.length + (template s.cfg).length - 1 →
        (correlationAt chunk (template s.cfg) k').natAbs ≤ (correlationAt chunk (template s.cfg) k).natAbs) ∧
      (∀ k', k' < k →
        (correlationAt chunk (template s.cfg) k').natAbs < (correlationAt chunk (template s.cfg) k).natAbs) ∧
      exec (.sync chunk) s =
        .next { s with
          rx := { s.rx with samplingOffset := (k : Int) + (s.cfg.osf : Int) / 2 }, outcome := some .done, result := none }

/-- R102 corner case (a): a chunk whose samples are all zero synchronises at `OSF/2`.
Running it by itself is the model's choice (notes/assumptions/5.md). -/
def Obligations.SilentChunkSynchronisesAtHalfASymbol : Prop :=
  ∀ (s : State) (n : Nat), s.fault = 0 → s.cfg.Valid → 0 < n → sampleFits s.cfg 0 = true →
    exec (.sync (List.replicate n 0)) s =
      .next { s with
        rx := { s.rx with samplingOffset := (s.cfg.osf : Int) / 2 }, outcome := some .done, result := none }

/-- R103: where the chunk holds the template at amplitude `a` from index `p`, the correlation at `k = p + M − 1` is `a × M`. -/
def Obligations.TemplateCopyCorrelatesToAmplitudeTimesLength : Prop :=
  ∀ (cfg : Params) (a : Int) (before after : List Sample), cfg.Valid →
    correlationAt (before ++ (template cfg).map (a * ·) ++ after) (template cfg)
        (before.length + (template cfg).length - 1) = a * ((cfg.preambleBits.length * cfg.osf : Nat) : Int)

/-! ### Timing recovery (`41_timing_recovery.md`) -/

/-- R110: `SAMPLE` completes from an offset `s ≥ 0`, writes nothing, and returns `ceil((n − s)/OSF)` bits (none when `s ≥ n`), bit `i`
being 1 exactly when the sample at index `s + i×OSF` is above 0.
Running it by itself is the model's choice (notes/assumptions/5.md). -/
def Obligations.SampleTakesOneBitEachPeriod : Prop :=
  ∀ (s : State) (chunk : List Sample), s.fault = 0 → s.cfg.Valid → ChunkOk s.cfg chunk → 0 ≤ s.rx.samplingOffset →
    ∃ bits, exec (.sample chunk) s = .next { s with outcome := some .done, result := some (.bits bits) } ∧
      bits.length = (chunk.length - s.rx.samplingOffset.toNat + (s.cfg.osf - 1)) / s.cfg.osf ∧
      ∀ i, i < bits.length →
        bits[i]? = (chunk[s.rx.samplingOffset.toNat + i * s.cfg.osf]?).map fun x => decide (0 < x)

/-- R111, R112: `RETIME` completes and writes the value of the rule's three lines, and nothing else; that value is `(s − n) mod OSF`,
which
lies in `[0, OSF)`. (`-((-l) / osf)` is `ceil(l / osf)`: integer division by a positive number rounds down.)
Running it by itself is the model's choice (notes/assumptions/5.md). -/
def Obligations.RetimeContinuesTheGrid : Prop :=
  (∀ (s : State) (n : Nat), s.fault = 0 → s.cfg.Valid → 0 < n → 0 ≤ s.rx.samplingOffset →
    ∃ newOffset : Int,
      exec (.retime n) s =
        .next { s with
          rx := { s.rx with samplingOffset := newOffset }, outcome := some .done, result := none } ∧
      newOffset = (-((-((n : Int) - s.rx.samplingOffset - (s.cfg.osf : Int) / 2)) / (s.cfg.osf : Int)) * (s.cfg.osf : Int) -
        ((n : Int) - s.rx.samplingOffset - (s.cfg.osf : Int) / 2) + (s.cfg.osf : Int) / 2) % (s.cfg.osf : Int) ∧
      newOffset = (s.rx.samplingOffset - (n : Int)) % (s.cfg.osf : Int) ∧
      0 ≤ newOffset ∧ newOffset < (s.cfg.osf : Int)) ∧
  ∀ (n osf : Nat) (s : Int), 0 < osf → osf % 2 = 0 → retimeOffset n s osf = (s - (n : Int)) % (osf : Int)

/-! ### The line decoder (`42_line_decoder.md`) -/

/-- R75, R80, R124: each of the 16 valid words is translated to its nibble, and nothing else changes.
That a row of the line code can be run by itself, and means `TRANSLATE` of its word, is the model's choice
(notes/assumptions/5.md, 12.md). -/
def Obligations.ValidCodewordsTranslateToTheirNibbles : Prop :=
  ∀ s : State, s.fault = 0 →
    ∀ row ∈ ([(.cw22, 0), (.cw13, 1), (.cw14, 2), (.cw11, 3), (.cw28, 4), (.cw25, 5), (.cw26, 6), (.cw19, 7),
      (.cw44, 8), (.cw37, 9), (.cw38, 10), (.cw35, 11), (.cw52, 12), (.cw49, 13), (.cw50, 14), (.cw41, 15)] : List (Instr × Nibble)),
      exec row.1 s = .next { s with outcome := some .done, result := some (.nibble row.2) }

/-- R81, R124, R161, R163: each of the 48 illegal words enters `InvalidLineCode` (code 1) with itself as `faultInfo`, and nothing
else changes.
That a row of the line code can be run by itself, and means `TRANSLATE` of its word, is the model's choice
(notes/assumptions/5.md, 12.md). -/
def Obligations.IllegalCodewordsRaiseInvalidLineCode : Prop :=
  ∀ s : State, s.fault = 0 →
    ∀ row ∈ ([(.cw0Illegal, 0), (.cw1Illegal, 1), (.cw2Illegal, 2), (.cw3Illegal, 3), (.cw4Illegal, 4), (.cw5Illegal, 5), (.cw6Illegal, 6), (.cw7Illegal, 7)] ++
      [(.cw8Illegal, 8), (.cw9Illegal, 9), (.cw10Illegal, 10), (.cw12Illegal, 12), (.cw15Illegal, 15), (.cw16Illegal, 16), (.cw17Illegal, 17), (.cw18Illegal, 18)] ++
      [(.cw20Illegal, 20), (.cw21Illegal, 21), (.cw23Illegal, 23), (.cw24Illegal, 24), (.cw27Illegal, 27), (.cw29Illegal, 29), (.cw30Illegal, 30), (.cw31Illegal, 31)] ++
      [(.cw32Illegal, 32), (.cw33Illegal, 33), (.cw34Illegal, 34), (.cw36Illegal, 36), (.cw39Illegal, 39), (.cw40Illegal, 40), (.cw42Illegal, 42), (.cw43Illegal, 43)] ++
      [(.cw45Illegal, 45), (.cw46Illegal, 46), (.cw47Illegal, 47), (.cw48Illegal, 48), (.cw51Illegal, 51), (.cw53Illegal, 53), (.cw54Illegal, 54), (.cw55Illegal, 55)] ++
      [(.cw56Illegal, 56), (.cw57Illegal, 57), (.cw58Illegal, 58), (.cw59Illegal, 59), (.cw60Illegal, 60), (.cw61Illegal, 61), (.cw62Illegal, 62), (.cw63Illegal, 63)] : List (Instr × Byte)),
      exec row.1 s = .next { s with fault := 1, faultInfo := row.2, outcome := some .fault, result := none }

/-- R75, R80: `LUT36` completes and holds the 16 pairs of the source's table and no other, and `TRANSLATE` of a word in the table
returns its nibble, of any other word enters `InvalidLineCode` with it.
Running it by itself is the model's choice (notes/assumptions/5.md). -/
def Obligations.LutHoldsTheThreeOfSixTable : Prop :=
  ∀ (s : State) (cw : Codeword),
    ∃ entry : Option Nibble,
      exec (.lut36 cw) s = .next { s with outcome := some .done, result := some (.lutEntry entry) } ∧
      (∀ n, entry = some n ↔ (cw, n) ∈ ([(22, 0), (13, 1), (14, 2), (11, 3), (28, 4), (25, 5), (26, 6), (19, 7), (44, 8), (37, 9), (38, 10), (35, 11), (52, 12), (49, 13), (50, 14), (41, 15)] : List (Codeword × Nibble))) ∧
      (s.fault = 0 → ∀ n, entry = some n →
        exec (.translate cw) s = .next { s with outcome := some .done, result := some (.nibble n) }) ∧
      (s.fault = 0 → entry = none →
        exec (.translate cw) s =
          .next { s with fault := 1, faultInfo := cw.setWidth 8, outcome := some .fault, result := none })

/-- R122, R74: `PACK6` completes on six bits and returns `32×b0 + 16×b1 + 8×b2 + 4×b3 + 2×b4 + b5`.
Running it by itself is the model's choice (notes/assumptions/5.md). -/
def Obligations.PackSixIsMostSignificantFirst : Prop :=
  ∀ (s : State) (b0 b1 b2 b3 b4 b5 : Bool),
    ∃ cw : Codeword, exec (.pack6 [b0, b1, b2, b3, b4, b5]) s =
        .next { s with outcome := some .done, result := some (.codeword cw) } ∧
      cw.toNat = 32 * b0.toNat + 16 * b1.toNat + 8 * b2.toNat + 4 * b3.toNat + 2 * b4.toNat + b5.toNat

/-- R125: `PACK8` completes on an even number of nibbles and returns one byte for each pair, the earlier nibble in `byte[7:4]`.
Running it by itself is the model's choice (notes/assumptions/5.md). -/
def Obligations.PackEightPutsTheEarlierNibbleHigh : Prop :=
  ∀ (s : State) (nibbles : List Nibble), nibbles.length % 2 = 0 →
    ∃ bytes, exec (.pack8 nibbles) s = .next { s with outcome := some .done, result := some (.bytes bytes) } ∧
      bytes.length = nibbles.length / 2 ∧
      ∀ i, i < bytes.length →
        (bytes.getD i 0).toNat = 16 * (nibbles.getD (2 * i) 0).toNat + (nibbles.getD (2 * i + 1) 0).toNat

/-- R120 to R125: when every codeword it translates is valid, `DECODE36` completes: it returns one byte for each pair, leaves the bits
past the last whole group in `spilledBits` and the odd codeword, untranslated, in `spilledNibbles`, and writes nothing else.
Running it by itself is the model's choice (notes/assumptions/5.md). -/
def Obligations.DecodeGroupsPairsAndHoldsBack : Prop :=
  ∀ (s : State) (bits : List Bool), s.fault = 0 →
    (∀ cw ∈ Sys2Proof.Spec.translated s.rx bits, lut36 cw ≠ none) →
    ∃ bytes : List Byte,
      exec (.decode36 bits) s =
        .next { s with
          rx := { s.rx with
            spilledBits := (s.rx.spilledBits ++ bits).drop (6 * ((s.rx.spilledBits ++ bits).length / 6)),
            spilledNibbles :=
              (Sys2Proof.Spec.codewords s.rx bits).drop (2 * ((Sys2Proof.Spec.codewords s.rx bits).length / 2)) },
          outcome := some .done, result := some (.bytes bytes) } ∧
      bytes.length = (Sys2Proof.Spec.codewords s.rx bits).length / 2 ∧
      ∀ i, i < bytes.length → ∃ hi lo : Nibble,
        lut36 ((Sys2Proof.Spec.codewords s.rx bits).getD (2 * i) 0) = some hi ∧
        lut36 ((Sys2Proof.Spec.codewords s.rx bits).getD (2 * i + 1) 0) = some lo ∧
        (bytes.getD i 0).toNat = 16 * hi.toNat + lo.toNat

/-- R120: no bit is ever dropped or used twice. After a `DECODE36` that does not raise, fewer than 6 bits and fewer than 2 codewords
are carried over (R126 b), and the counts balance.
Running it by itself is the model's choice (notes/assumptions/5.md). -/
def Obligations.DecodeAccountsForEveryBit : Prop :=
  ∀ (s t : State) (bits : List Bool) (bytes : List Byte),
    exec (.decode36 bits) s = .next t → t.result = some (.bytes bytes) →
    t.rx.spilledBits.length < 6 ∧ t.rx.spilledNibbles.length < 2 ∧
    12 * bytes.length + 6 * t.rx.spilledNibbles.length + t.rx.spilledBits.length =
      6 * s.rx.spilledNibbles.length + s.rx.spilledBits.length + bits.length

/-- R124, R164: when a codeword to be translated is illegal and all older ones are valid, `DECODE36` enters `InvalidLineCode` with
that
codeword, whatever follows it, and writes no receiver register.
Running it by itself is the model's choice (notes/assumptions/5.md). -/
def Obligations.DecodeRaisesOnTheOldestIllegalCodeword : Prop :=
  ∀ (s : State) (bits : List Bool) (older newer : List Codeword) (cw : Codeword), s.fault = 0 →
    Sys2Proof.Spec.translated s.rx bits = older ++ cw :: newer → (∀ x ∈ older, lut36 x ≠ none) → lut36 cw = none →
    exec (.decode36 bits) s =
      .next { s with fault := 1, faultInfo := cw.setWidth 8, outcome := some .fault, result := none }

/-- R126 (a): from empty spill registers, whatever came before, the twelve bits of two codewords of the table decode to the one byte
of
their nibbles and leave both spill registers empty.
Running it by itself is the model's choice (notes/assumptions/5.md). -/
def Obligations.TwoValidCodewordsDecodeToOneByte : Prop :=
  ∀ (s : State) (cwA cwB : Codeword) (hi lo : Nibble),
    s.fault = 0 → s.rx.spilledBits = [] → s.rx.spilledNibbles = [] →
    exec (.lut36 cwA) s = .next { s with outcome := some .done, result := some (.lutEntry (some hi)) } →
    exec (.lut36 cwB) s = .next { s with outcome := some .done, result := some (.lutEntry (some lo)) } →
    ∃ b : Byte, b.toNat = 16 * hi.toNat + lo.toNat ∧
      exec (.decode36 (codewordBits cwA ++ codewordBits cwB)) s =
        .next { s with outcome := some .done, result := some (.bytes [b]) }

/-- R126 (c): decoding a bit stream in two calls that do not raise gives the bytes and the registers of one call on the whole.
Running it by itself is the model's choice (notes/assumptions/5.md). -/
def Obligations.DecodeDoesNotSeeCallBoundaries : Prop :=
  ∀ (s t u : State) (first second : List Bool) (bytes1 bytes2 : List Byte),
    exec (.decode36 first) s = .next t → t.result = some (.bytes bytes1) →
    exec (.decode36 second) t = .next u → u.result = some (.bytes bytes2) →
    exec (.decode36 (first ++ second)) s = .next { u with result := some (.bytes (bytes1 ++ bytes2)) }

/-- U16 of `93_implementation_defined.md` [derived: from rule R75]: a stream of inverted bits, from empty spill registers, decodes
without a fault whenever the upright one does, to the one's complement of every byte.
Running it by itself is the model's choice (notes/assumptions/5.md). -/
def Obligations.InvertedStreamDecodesToTheComplement : Prop :=
  ∀ (s t : State) (bits : List Bool) (bytes : List Byte),
    s.rx.spilledBits = [] → s.rx.spilledNibbles = [] →
    exec (.decode36 bits) s = .next t → t.result = some (.bytes bytes) →
    ∃ u, exec (.decode36 (bits.map (! ·))) s = .next u ∧ u.result = some (.bytes (bytes.map (~~~ ·)))

/-! ### The frame assembler (`43_frame_assembler.md`) -/

/-- R131: `CALCSIZE` completes on every byte and returns the formula's value, floor toward −∞; the value lies in 2..289 and is
strictly
increasing in `L`.
Running it by itself is the model's choice (notes/assumptions/5.md). -/
def Obligations.CalcsizeFollowsTheFormula : Prop :=
  (∀ (s : State) (l : Byte), ∃ size : Nat,
    exec (.calcsize l) s = .next { s with outcome := some .done, result := some (.size size) } ∧
    (size : Int) = (l.toNat : Int) + 2 + Int.fdiv ((l.toNat : Int) - 9) 16 * 2 +
      (if Int.fmod ((l.toNat : Int) - 9) 16 ≠ 0 then 2 else 0) ∧
    2 ≤ size ∧ size ≤ 289) ∧
  ∀ l l' : Byte, l.toNat < l'.toNat → calcSize l < calcSize l'

/-- R133 (b), (c): for `L ≥ 10` the receiver stops one byte before the end of the layout for `L − 9` data bytes; for `L ≤ 9` its frame
is shorter than a header. -/
def Obligations.ReceiverStopsOneByteEarly : Prop :=
  ∀ l : Byte,
    (10 ≤ l.toNat → calcSize l + 1 = 12 + (l.toNat - 9) + 2 * ((l.toNat - 9 + 15) / 16)) ∧
    (l.toNat ≤ 9 → calcSize l ≤ 11)

/-- R130: `ASSEMBLE` completes: it appends, latches the length from the first byte while it is unknown, and when the length is known
and
reached cuts to exactly that length and sets `frameComplete`; otherwise `frameComplete` stays. Nothing else changes.
Running it by itself is the model's choice (notes/assumptions/5.md). -/
def Obligations.AssembleLatchesAndCompletes : Prop :=
  ∀ (s : State) (bytes : List Byte), s.fault = 0 →
    ∃ (tfl : Nat) (acc : List Byte) (fc : Bool),
      exec (.assemble bytes) s =
        .next { s with
          rx := { s.rx with accumulatedBytes := acc, targetFrameLength := tfl, frameComplete := fc },
          outcome := some .done, result := none } ∧
      (s.rx.targetFrameLength ≠ 0 → tfl = s.rx.targetFrameLength) ∧
      (s.rx.targetFrameLength = 0 → ∀ l ∈ (s.rx.accumulatedBytes ++ bytes).head?, tfl = calcSize l) ∧
      (s.rx.targetFrameLength = 0 → s.rx.accumulatedBytes ++ bytes = [] → tfl = 0) ∧
      (tfl ≠ 0 → tfl ≤ (s.rx.accumulatedBytes ++ bytes).length →
        acc = (s.rx.accumulatedBytes ++ bytes).take tfl ∧ fc = true) ∧
      ((tfl = 0 ∨ (s.rx.accumulatedBytes ++ bytes).length < tfl) →
        acc = s.rx.accumulatedBytes ++ bytes ∧ fc = s.rx.frameComplete)

/-- R53: within a frame the frame buffer is append-only. From a state that meets R27 (d), `ASSEMBLE` changes no byte already stored.
Running it by itself is the model's choice (notes/assumptions/5.md). -/
def Obligations.FrameBufferIsAppendOnly : Prop :=
  ∀ (s t : State) (bytes : List Byte),
    (s.rx.targetFrameLength ≠ 0 → s.rx.accumulatedBytes.length ≤ s.rx.targetFrameLength) →
    (s.rx.targetFrameLength = 0 → s.rx.accumulatedBytes = []) →
    exec (.assemble bytes) s = .next t → s.rx.accumulatedBytes <+: t.rx.accumulatedBytes

/-- R132, R181: `RESTART` completes and clears all six receiver registers, to their reset values; the fault, status and telegram
registers
are not touched.
Running it by itself is the model's choice (notes/assumptions/5.md). -/
def Obligations.RestartClearsTheReceiver : Prop :=
  ∀ s : State, s.fault = 0 →
    exec .restart s =
      .next { s with
        rx := { samplingOffset := -1, targetFrameLength := 0, frameComplete := false, accumulatedBytes := [],
                spilledBits := [], spilledNibbles := [] },
        outcome := some .done, result := none } ∧
    exec .restart s = .next { s with rx := State.reset.rx, outcome := some .done, result := none }

/-! ### The telegram parser (`44_telegram_parser.md`) -/

/-- R142: `STRIP` completes on at least 13 bytes and returns the data bytes of the blocks that are there, no CRC byte among them.
Running it by itself is the model's choice (notes/assumptions/5.md). -/
def Obligations.StripTakesTheDataBytes : Prop :=
  ∀ (s : State) (raw : List Byte) (l : Byte), 13 ≤ raw.length →
    exec (.strip raw l) s =
      .next { s with outcome := some .done, result := some (.bytes (Sys2Proof.Spec.data raw l)) }

/-- R77, R141, R152: on more than 12 bytes `PARSE` and `PARSEFRAME` complete, writing the seven telegram registers from the bytes the
layout gives them and nothing else. -/
def Obligations.ParseFillsTheTelegramRegisters : Prop :=
  ∀ (s : State) (raw : List Byte), ParseAccepted raw s → 13 ≤ raw.length →
    ∃ t : Telegram,
      t.lengthField = raw.getD 0 0 ∧ t.control = raw.getD 1 0 ∧
      t.manufacturerId.toNat = (raw.getD 2 0).toNat + 256 * (raw.getD 3 0).toNat ∧
      [t.address.a0, t.address.a1, t.address.a2, t.address.a3, t.address.a4, t.address.a5] = (raw.drop 4).take 6 ∧
      t.headerCrc.toNat = (raw.getD 10 0).toNat + 256 * (raw.getD 11 0).toNat ∧
      t.controlInfo = raw.getD 12 0 ∧
      t.payload = (Sys2Proof.Spec.data raw (raw.getD 0 0)).drop 1 ∧
      exec (.parse raw) s = .next { s with telegram := some t, outcome := some .done, result := none } ∧
      (raw = s.rx.accumulatedBytes →
        exec .parseframe s = .next { s with telegram := some t, outcome := some .done, result := none })

/-- R162, R163: on 12 bytes or fewer `PARSE` enters `TruncatedFrame` (code 2) with the number of bytes, and every other
register keeps its value. No other shortness is a fault: on more bytes `PARSE` enters none, whatever the length field says. -/
def Obligations.ShortInputRaisesTruncatedFrame : Prop :=
  ∀ (s : State) (raw : List Byte), ParseAccepted raw s →
    (raw.length ≤ 12 → ∃ info : Byte, info.toNat = raw.length ∧
      exec (.parse raw) s = .next { s with fault := 2, faultInfo := info, outcome := some .fault, result := none }) ∧
    (12 < raw.length → ∃ t, exec (.parse raw) s = .next t ∧ t.fault = 0 ∧ t.outcome = some .done)

/-- R143: `SERIALIZE` with `telegramValid = 1` completes, returns the `11 + len(payload)` bytes of the export, in which the header CRC
does not appear, and writes nothing. -/
def Obligations.SerializeEmitsTheExport : Prop :=
  ∀ (s : State) (t : Telegram), s.fault = 0 → s.telegram = some t →
    ∃ bytes : List Byte, exec .serialize s = .next { s with outcome := some .done, result := some (.bytes bytes) } ∧
      bytes.length = 11 + t.payload.length ∧
      bytes.take 2 = [t.lengthField, t.control] ∧
      (bytes.getD 2 0).toNat + 256 * (bytes.getD 3 0).toNat = t.manufacturerId.toNat ∧
      (bytes.drop 4).take 6 =
        [t.address.a0, t.address.a1, t.address.a2, t.address.a3, t.address.a4, t.address.a5] ∧
      bytes.getD 10 0 = t.controlInfo ∧ bytes.drop 11 = t.payload

/-- R141, R143: the functions `parse` and `serialize` complete where the commands `PARSE` and `SERIALIZE` do, return what those write
or
return, and write no telegram register; `parse` raises as `PARSE` does. Running them by themselves is the model's choice
(notes/assumptions/5.md). -/
def Obligations.FunctionsAnswerAsTheirCommands : Prop :=
  (∀ (s : State) (raw : List Byte), ParseAccepted raw s → 13 ≤ raw.length →
    ∃ t : Telegram, exec (.parse raw) s = .next { s with telegram := some t, outcome := some .done, result := none } ∧
      exec (.parseFn raw) s = .next { s with outcome := some .done, result := some (.telegram t) }) ∧
  (∀ (s : State) (raw : List Byte), ParseAccepted raw s → raw.length ≤ 12 → exec (.parseFn raw) s = exec (.parse raw) s) ∧
  ∀ (s : State) (t : Telegram), s.fault = 0 → t.payload.length ≤ 255 →
    ∃ bytes : List Byte,
      exec (.serializeFn t) s = .next { s with outcome := some .done, result := some (.bytes bytes) } ∧
      exec .serialize { s with telegram := some t } =
        .next { s with telegram := some t, outcome := some .done, result := some (.bytes bytes) }

/-- R144: of a frame the receiver completed, `PARSE` raises `TruncatedFrame` for `L ≤ 9`; for `L ≥ 10` `STRIP` gives exactly `L − 9`
bytes
and the payload has exactly `L − 10`. -/
def Obligations.ReceivedFrameHasThePayloadItsLengthSays : Prop :=
  ∀ (s : State) (l : Byte) (rest : List Byte), ParseAccepted (l :: rest) s → (l :: rest).length = calcSize l →
    (l.toNat ≤ 9 → (l :: rest).length ≤ 11 ∧
      ∃ t, exec (.parse (l :: rest)) s = .next t ∧ t.fault = 2 ∧ t.faultInfo.toNat = (l :: rest).length) ∧
    (10 ≤ l.toNat → (strip (l :: rest) l).length = l.toNat - 9 ∧
      ∃ t tel, exec (.parse (l :: rest)) s = .next t ∧ t.fault = 0 ∧ t.telegram = some tel ∧
        tel.payload.length = l.toNat - 10)

/-! ### The host commands (`45_host_commands.md`) -/

/-- R155: (a) while `fault ≠ 0` every command but `RESET` is refused; (b) an operand longer than its bound is refused; (c)
`SERIALIZE` is
refused while `telegramValid = 0`. A refused command changes no register and returns nothing. -/
def Obligations.HeldOrOverlongCommandIsRefused : Prop :=
  ∀ s : State,
    (s.fault ≠ 0 → ∀ i : Instr,
      ((∃ c, i = .feed c) ∨ (∃ r, i = .parse r) ∨ i = .serialize ∨ i = .nopfeed ∨ i = .parseframe) →
      exec i s = .next { s with outcome := some .refused, result := none }) ∧
    (∀ (m : Nat) (c : List Sample), s.cfg.chunkMax = some m → m < c.length →
      exec (.feed c) s = .next { s with outcome := some .refused, result := none }) ∧
    (∀ (m : Nat) (r : List Byte), s.cfg.rawMax = some m → m < r.length →
      exec (.parse r) s = .next { s with outcome := some .refused, result := none }) ∧
    (s.telegram = none → exec .serialize s = .next { s with outcome := some .refused, result := none })

/-- R151, R166 (D16): a `FEED` of the empty chunk, under either name, is done and writes nothing, a completed frame included. -/
def Obligations.EmptyFeedIsDoneAndWritesNothing : Prop :=
  ∀ s : State, s.fault = 0 →
    exec (.feed []) s = .next { s with outcome := some .done, result := none } ∧
    exec .nopfeed s = .next { s with outcome := some .done, result := none }

/-- R151: `FEED` is its stages in order, each seeing the working copies as the one before left them. Run one at a time as stages they
end either in the registers that `FEED` commits, or in the fault that `FEED` enters with no receiver register changed (R150).
Running it by itself is the model's choice (notes/assumptions/5.md). -/
def Obligations.FeedIsItsStagesInOrder : Prop :=
  ∀ (s : State) (chunk : List Sample), FeedAccepted chunk s →
    ∃ (s1 s2 s3 s4 s5 : State) (bits : List Bool),
      (if s.rx.frameComplete = true then exec .restart s = .next s1 else s1 = s) ∧
      (if s1.rx.samplingOffset = -1 then exec (.sync chunk) s1 = .next s2 else s2 = s1) ∧
      exec (.sample chunk) s2 = .next s3 ∧ s3.result = some (.bits bits) ∧
      exec (.retime chunk.length) s3 = .next s4 ∧
      exec (.decode36 bits) s4 = .next s5 ∧
      ((∃ (bytes : List Byte) (s6 : State),
          s5.result = some (.bytes bytes) ∧ exec (.assemble bytes) s5 = .next s6 ∧
          exec (.feed chunk) s = .next { s with rx := s6.rx, outcome := some .done, result := none }) ∨
       (s5.fault = 1 ∧
          exec (.feed chunk) s =
            .next { s with fault := 1, faultInfo := s5.faultInfo, outcome := some .fault, result := none }))

/-- R151: from a synchronised receiver with no complete frame, `FEED` completes when every codeword it translates is valid: it writes
the offset of `RETIME`, the carried bits and codeword of `DECODE36` and, from the bytes that the pairs of codewords decode to, the frame
registers of `ASSEMBLE`, and nothing else. -/
def Obligations.FeedCompletesOnValidCode : Prop :=
  ∀ (s : State) (chunk : List Sample) (bits : List Bool), FeedAccepted chunk s →
    0 ≤ s.rx.samplingOffset → s.rx.frameComplete = false →
    bits = sampleBits s.cfg.osf s.rx.samplingOffset.toNat chunk →
    (∀ cw ∈ Sys2Proof.Spec.translated s.rx bits, lut36 cw ≠ none) →
    ∃ rx : Receiver, exec (.feed chunk) s = .next { s with rx := rx, outcome := some .done, result := none } ∧
      rx.samplingOffset = (s.rx.samplingOffset - (chunk.length : Int)) % (s.cfg.osf : Int) ∧
      rx.spilledBits = (s.rx.spilledBits ++ bits).drop (6 * ((s.rx.spilledBits ++ bits).length / 6)) ∧
      rx.spilledNibbles =
        (Sys2Proof.Spec.codewords s.rx bits).drop (2 * ((Sys2Proof.Spec.codewords s.rx bits).length / 2)) ∧
      ∃ bytes : List Byte, bytes.length = (Sys2Proof.Spec.codewords s.rx bits).length / 2 ∧
        (∀ i, i < bytes.length → ∃ hi lo : Nibble,
          lut36 ((Sys2Proof.Spec.codewords s.rx bits).getD (2 * i) 0) = some hi ∧
          lut36 ((Sys2Proof.Spec.codewords s.rx bits).getD (2 * i + 1) 0) = some lo ∧
          (bytes.getD i 0).toNat = 16 * hi.toNat + lo.toNat) ∧
        rx.targetFrameLength = latchLength s.rx.targetFrameLength (s.rx.accumulatedBytes ++ bytes) ∧
        (rx.frameComplete = true ↔ rx.targetFrameLength ≠ 0 ∧
          rx.targetFrameLength ≤ (s.rx.accumulatedBytes ++ bytes).length) ∧
        rx.accumulatedBytes = if rx.frameComplete = true
          then (s.rx.accumulatedBytes ++ bytes).take rx.targetFrameLength else s.rx.accumulatedBytes ++ bytes

/-- R151 (c), R21: after a `FEED` of a non-empty chunk that ends `done` the offset lies in `[0, OSF)`, whatever it was. -/
def Obligations.FeedLeavesTheOffsetInOnePeriod : Prop :=
  ∀ (s t : State) (chunk : List Sample), chunk ≠ [] → exec (.feed chunk) s = .next t → t.outcome = some .done →
    0 ≤ t.rx.samplingOffset ∧ t.rx.samplingOffset < (s.cfg.osf : Int)

/-- R181, R132: a `FEED` after a completed frame ends as it would on a receiver just reset. When it raises nothing it gives the same
receiver registers; when it enters `InvalidLineCode` it does so with the same `faultInfo` in both, and each keeps its receiver (R150). -/
def Obligations.EveryFrameStartsFromTheSameReceiver : Prop :=
  ∀ (s t : State) (chunk : List Sample), FeedAccepted chunk s → s.rx.frameComplete = true →
    exec (.feed chunk) s = .next t →
    ∃ u, exec (.feed chunk) { s with rx := (State.resetWith s.cfg).rx } = .next u ∧
      (t.fault = 0 → u.fault = 0 ∧ t.outcome = some .done ∧ u.outcome = some .done ∧ u.rx = t.rx) ∧
      (t.fault ≠ 0 → t.fault = 1 ∧ u.fault = 1 ∧ u.faultInfo = t.faultInfo ∧ t.outcome = some .fault ∧
        u.outcome = some .fault ∧ t.rx = s.rx ∧ u.rx = (State.resetWith s.cfg).rx)

/-- R73: scaling every sample of a chunk by the same positive factor changes nothing of what `FEED` does. -/
def Obligations.FeedIgnoresTheScaleOfTheSamples : Prop :=
  ∀ (s : State) (chunk : List Sample) (a : Int), 0 < a →
    (∀ x ∈ chunk, sampleFits s.cfg x = true) → (∀ x ∈ chunk, sampleFits s.cfg (a * x) = true) →
    exec (.feed (chunk.map (a * ·))) s = exec (.feed chunk) s

/-- R60, R112, R126 (c): chunk boundaries need no alignment. Inside a frame, feeding a stream in two chunks gives the receiver
registers
that one chunk gives. -/
def Obligations.ChunkBoundariesNeedNoAlignment : Prop :=
  ∀ (s t u : State) (first second : List Sample),
    first ≠ [] → second ≠ [] → (∀ m ∈ s.cfg.chunkMax, (first ++ second).length ≤ m) →
    0 ≤ s.rx.samplingOffset → s.rx.samplingOffset < (s.cfg.osf : Int) → s.rx.frameComplete = false →
    exec (.feed first) s = .next t → t.outcome = some .done → t.rx.frameComplete = false →
    exec (.feed second) t = .next u → u.outcome = some .done →
    exec (.feed (first ++ second)) s = .next u

/-- R103, R130, R133 (d), R191: a chunk that brings the preamble template, at any positive amplitude, and then a whole frame, and
whose
correlation first peaks at the last sample of the template, completes exactly that frame in one `FEED`. How the chunk is built
from the frame (`symbolSamples`, `frameBits`) is the model's transmitter (notes/assumptions/17.md). -/
def Obligations.TransmittedFrameIsReceived : Prop :=
  ∀ (s : State) (before : List Sample) (a : Int) (l : Byte) (rest : List Byte) (chunk : List Sample),
    0 < a → (l :: rest).length = calcSize l →
    chunk = before ++ (template s.cfg).map (a * ·) ++ symbolSamples s.cfg.osf a (frameBits (l :: rest)) →
    FeedAccepted chunk s → (s.rx = (State.resetWith s.cfg).rx ∨ s.rx.frameComplete = true) →
    peakIndex (xcorr chunk (template s.cfg)) = before.length + (template s.cfg).length - 1 →
    exec (.feed chunk) s =
      .next { s with
        rx := { samplingOffset := (s.cfg.osf : Int) / 2 - 1, targetFrameLength := calcSize l, frameComplete := true,
                accumulatedBytes := l :: rest, spilledBits := [], spilledNibbles := [] },
        outcome := some .done, result := none }

/-- R189, R151 (d): while a frame is in progress `SYNC` does not run, however bad the data: what `FEED` does to the receiver does not
depend on the preamble. -/
def Obligations.NoResynchronisationInsideAFrame : Prop :=
  ∀ (s t : State) (chunk : List Sample) (bits : List Int),
    0 ≤ s.rx.samplingOffset → s.rx.frameComplete = false →
    ({ s.cfg with preambleBits := bits } : Params).Valid →
    exec (.feed chunk) s = .next t →
    exec (.feed chunk) { s with cfg := { s.cfg with preambleBits := bits } } =
      .next { t with cfg := { s.cfg with preambleBits := bits } }

/-- R184, R38: a completed frame stays in `currentFrame`, and `frameComplete` stays 1, until a `FEED` of a non-empty chunk or a
`RESET`
is taken: no other step changes a receiver register.
The transfers that a step takes are the model's command input (notes/assumptions/2.md). -/
def Obligations.CompletedFrameStaysUntilTheNextFeed : Prop :=
  ∀ s t : State, step s = .next t →
    (∀ c, s.pending.head? = some (.command 0 (.chunk c)) → c = []) → s.pending.head? ≠ some (.command 3 .none) →
    t.rx = s.rx

/-! ### Frames: what is left unchanged -/

/-- R2, R36: the pure functions and the steps without a fault change no register; nor does `SAMPLE` (R110), which "Writes: nothing".
Running it by itself is the model's choice (notes/assumptions/5.md). -/
def Obligations.PureOperationsChangeNoRegister : Prop :=
  ∀ (i : Instr) (s t : State),
    ((∃ c, i = .sample c) ∨ (∃ g, i = .pack6 g) ∨ (∃ n, i = .pack8 n) ∨ (∃ b o, i = .genpreamble b o) ∨
      (∃ c m, i = .xcorr c m) ∨ (∃ w, i = .lut36 w) ∨ (∃ l, i = .calcsize l) ∨ (∃ r l, i = .strip r l) ∨
      (∃ x, i = .serializeFn x) ∨ i = .serialize ∨ i = .nopfeed) →
    exec i s = .next t → t = { s with outcome := t.outcome, result := t.result }

/-- R150, R163: an operation that may raise but writes no receiver register (`TRANSLATE`, `parse`, every word of the line code)
changes
at most the fault registers.
That a row of the line code can be run by itself, and means `TRANSLATE` of its word, is the model's choice
(notes/assumptions/5.md, 12.md). -/
def Obligations.TranslationsChangeAtMostTheFaultRegisters : Prop :=
  ∀ (i : Instr) (s t : State),
    ((∃ w, i = .translate w) ∨ (∃ r, i = .parseFn r) ∨ ∃ w, encode i = some (.lineWord w)) →
    exec i s = .next t →
    t = { s with fault := t.fault, faultInfo := t.faultInfo, outcome := t.outcome, result := t.result }

/-- R52, R8, R34: whatever runs, the parameters (and so the template) never change; the telegram registers change only by `PARSE`,
`PARSEFRAME` and `RESET`. That the transfers that wait stay as they are, under `RESET` too, is the model's choice
(notes/assumptions/2.md, 19.md). -/
def Obligations.OnlyParseAndResetTouchTheTelegram : Prop :=
  ∀ (i : Instr) (s t : State), exec i s = .next t →
    t.cfg = s.cfg ∧ t.pending = s.pending ∧
    ((∀ r, i ≠ .parse r) → i ≠ .parseframe → i ≠ .reset → t.telegram = s.telegram)

/-- R152, R153, R34, R29: the receiver registers change only by `FEED`, its stages `RESTART`, `SYNC`, `RETIME`, `DECODE36`,
`ASSEMBLE`, and
`RESET`; and each stage changes only its own: the offset, the spill registers, or the frame registers.
Running it by itself is the model's choice (notes/assumptions/5.md). -/
def Obligations.EachStageWritesItsOwnRegisters : Prop :=
  ∀ (i : Instr) (s t : State), exec i s = .next t →
    ((∀ c, i ≠ .feed c) → i ≠ .reset → i ≠ .restart → (∀ c, i ≠ .sync c) → (∀ n, i ≠ .retime n) →
      (∀ b, i ≠ .decode36 b) → (∀ b, i ≠ .assemble b) → t.rx = s.rx) ∧
    (((∃ c, i = .sync c) ∨ ∃ n, i = .retime n) →
      t = { s with
        rx := { s.rx with samplingOffset := t.rx.samplingOffset }, outcome := t.outcome, result := t.result }) ∧
    ((∃ b, i = .decode36 b) →
      t = { s with
        rx := { s.rx with spilledBits := t.rx.spilledBits, spilledNibbles := t.rx.spilledNibbles },
        fault := t.fault, faultInfo := t.faultInfo, outcome := t.outcome, result := t.result }) ∧
    ((∃ b, i = .assemble b) →
      t = { s with
        rx := { s.rx with accumulatedBytes := t.rx.accumulatedBytes, targetFrameLength := t.rx.targetFrameLength,
                          frameComplete := t.rx.frameComplete },
        outcome := t.outcome, result := t.result })

/-! ### Faults, invariants, instances (`60_exceptions.md`, `10_state.md`) -/

/-- R163: fault entry writes the code and the detail, ends the command with outcome `fault` and no result, and changes nothing else.
-/
def Obligations.FaultEntryWritesTwoRegisters : Prop :=
  ∀ (s : State) (info : Byte),
    s.raise .invalidLineCode info = { s with fault := 1, faultInfo := info, outcome := some .fault, result := none } ∧
    s.raise .truncatedFrame info = { s with fault := 2, faultInfo := info, outcome := some .fault, result := none }

/-- R165, R164: a fault is sticky. While `fault ≠ 0` nothing but `RESET` changes `fault`, `faultInfo`, a receiver register or a
telegram
register, whatever is run (that a stage or step run by itself is held too is the model's choice, notes/assumptions/5.md). -/
def Obligations.OnlyResetLeavesAFault : Prop :=
  ∀ (i : Instr) (s t : State), s.fault ≠ 0 → i ≠ .reset → exec i s = .next t →
    t = { s with outcome := t.outcome, result := t.result }

/-- R27, R30: the invariant of a command boundary holds of the state after reset. -/
def Obligations.InvariantHoldsAtReset : Prop :=
  Inv State.reset ∧ ∀ cfg : Params, cfg.Valid → Inv (State.resetWith cfg)

/-- R27 (a) to (h), R30, R33: every step from a state that meets the invariant leads to one that meets it, faults and refusals
included.
The transfers that a step takes are the model's command input (notes/assumptions/2.md). -/
def Obligations.StepKeepsTheInvariant : Prop :=
  ∀ s t : State, Inv s → step s = .next t → Inv t

/-- R10, R50: every operation keeps the storage arrays within their bounds: 289 bytes of frame, 255 of payload, 5 bits, 1 codeword. -/
def Obligations.EveryOperationKeepsTheArraysInBounds : Prop :=
  ∀ (i : Instr) (s t : State), Memory.wf s = true → exec i s = .next t → Memory.wf t = true

/-- R71, R170: instances share no mutable state. A step of one leaves every other as it was, and steps of two instances give the same
platform in either order. The platform as a list of states, moved one step at a time, and the step at a position with no instance are
the model's choice (notes/assumptions/14.md); the statement holds whatever `step` does to one state. -/
def Obligations.InstancesDoNotInterfere : Prop :=
  ∀ (p q : Platform) (j k : Nat), j ≠ k → stepInstance j p = .next q →
    q[k]? = p[k]? ∧
    ∀ r, stepInstance k q = .next r → ∃ q', stepInstance k p = .next q' ∧ stepInstance j q' = .next r
end

