-- ==== Sys2Proof/Laws/State.lean ====
section
/-! SUPPORT. One lemma for each field of each update of the state and of the receiver record, true by `rfl`. -/

namespace Sys2Proof.Machine

@[simp] theorem State.finish_cfg (s : State) (r : Option Result) : (s.finish r).cfg = s.cfg := rfl
@[simp] theorem State.finish_rx (s : State) (r : Option Result) : (s.finish r).rx = s.rx := rfl
@[simp] theorem State.finish_fault (s : State) (r : Option Result) : (s.finish r).fault = s.fault := rfl
@[simp] theorem State.finish_faultInfo (s : State) (r : Option Result) : (s.finish r).faultInfo = s.faultInfo := rfl
@[simp] theorem State.finish_telegram (s : State) (r : Option Result) : (s.finish r).telegram = s.telegram := rfl
@[simp] theorem State.finish_pending (s : State) (r : Option Result) : (s.finish r).pending = s.pending := rfl
@[simp] theorem State.finish_outcome (s : State) (r : Option Result) : (s.finish r).outcome = some .done := rfl
@[simp] theorem State.finish_result (s : State) (r : Option Result) : (s.finish r).result = r := rfl

@[simp] theorem State.turnAway_cfg (s : State) : (s.turnAway).cfg = s.cfg := rfl
@[simp] theorem State.turnAway_rx (s : State) : (s.turnAway).rx = s.rx := rfl
@[simp] theorem State.turnAway_fault (s : State) : (s.turnAway).fault = s.fault := rfl
@[simp] theorem State.turnAway_faultInfo (s : State) : (s.turnAway).faultInfo = s.faultInfo := rfl
@[simp] theorem State.turnAway_telegram (s : State) : (s.turnAway).telegram = s.telegram := rfl
@[simp] theorem State.turnAway_pending (s : State) : (s.turnAway).pending = s.pending := rfl
@[simp] theorem State.turnAway_outcome (s : State) : (s.turnAway).outcome = some .refused := rfl
@[simp] theorem State.turnAway_result (s : State) : (s.turnAway).result = none := rfl

@[simp] theorem State.raise_cfg (s : State) (k : FaultKind) (info : Byte) : (s.raise k info).cfg = s.cfg := rfl
@[simp] theorem State.raise_rx (s : State) (k : FaultKind) (info : Byte) : (s.raise k info).rx = s.rx := rfl
@[simp] theorem State.raise_fault (s : State) (k : FaultKind) (info : Byte) : (s.raise k info).fault = k.code := rfl
@[simp] theorem State.raise_faultInfo (s : State) (k : FaultKind) (info : Byte) : (s.raise k info).faultInfo = info := rfl
@[simp] theorem State.raise_telegram (s : State) (k : FaultKind) (info : Byte) : (s.raise k info).telegram = s.telegram := rfl
@[simp] theorem State.raise_pending (s : State) (k : FaultKind) (info : Byte) : (s.raise k info).pending = s.pending := rfl
@[simp] theorem State.raise_outcome (s : State) (k : FaultKind) (info : Byte) : (s.raise k info).outcome = some .fault := rfl
@[simp] theorem State.raise_result (s : State) (k : FaultKind) (info : Byte) : (s.raise k info).result = none := rfl

@[simp] theorem State.clearAll_cfg (s : State) : (s.clearAll).cfg = s.cfg := rfl
@[simp] theorem State.clearAll_rx (s : State) : (s.clearAll).rx = Receiver.reset := rfl
@[simp] theorem State.clearAll_fault (s : State) : (s.clearAll).fault = 0 := rfl
@[simp] theorem State.clearAll_faultInfo (s : State) : (s.clearAll).faultInfo = 0 := rfl
@[simp] theorem State.clearAll_telegram (s : State) : (s.clearAll).telegram = none := rfl
@[simp] theorem State.clearAll_pending (s : State) : (s.clearAll).pending = s.pending := rfl
@[simp] theorem State.clearAll_outcome (s : State) : (s.clearAll).outcome = s.outcome := rfl
@[simp] theorem State.clearAll_result (s : State) : (s.clearAll).result = s.result := rfl

@[simp] theorem State.setReceiver_cfg (s : State) (rx : Receiver) : (s.setReceiver rx).cfg = s.cfg := rfl
@[simp] theorem State.setReceiver_rx (s : State) (rx : Receiver) : (s.setReceiver rx).rx = rx := rfl
@[simp] theorem State.setReceiver_fault (s : State) (rx : Receiver) : (s.setReceiver rx).fault = s.fault := rfl
@[simp] theorem State.setReceiver_faultInfo (s : State) (rx : Receiver) : (s.setReceiver rx).faultInfo = s.faultInfo := rfl
@[simp] theorem State.setReceiver_telegram (s : State) (rx : Receiver) : (s.setReceiver rx).telegram = s.telegram := rfl
@[simp] theorem State.setReceiver_pending (s : State) (rx : Receiver) : (s.setReceiver rx).pending = s.pending := rfl
@[simp] theorem State.setReceiver_outcome (s : State) (rx : Receiver) : (s.setReceiver rx).outcome = s.outcome := rfl
@[simp] theorem State.setReceiver_result (s : State) (rx : Receiver) : (s.setReceiver rx).result = s.result := rfl

@[simp] theorem State.setTelegram_cfg (s : State) (t : Telegram) : (s.setTelegram t).cfg = s.cfg := rfl
@[simp] theorem State.setTelegram_rx (s : State) (t : Telegram) : (s.setTelegram t).rx = s.rx := rfl
@[simp] theorem State.setTelegram_fault (s : State) (t : Telegram) : (s.setTelegram t).fault = s.fault := rfl
@[simp] theorem State.setTelegram_faultInfo (s : State) (t : Telegram) : (s.setTelegram t).faultInfo = s.faultInfo := rfl
@[simp] theorem State.setTelegram_telegram (s : State) (t : Telegram) : (s.setTelegram t).telegram = some t := rfl
@[simp] theorem State.setTelegram_pending (s : State) (t : Telegram) : (s.setTelegram t).pending = s.pending := rfl
@[simp] theorem State.setTelegram_outcome (s : State) (t : Telegram) : (s.setTelegram t).outcome = s.outcome := rfl
@[simp] theorem State.setTelegram_result (s : State) (t : Telegram) : (s.setTelegram t).result = s.result := rfl

@[simp] theorem presentNext_cfg (s : State) (t : Transfer) : (presentNext s t).cfg = s.cfg := rfl
@[simp] theorem presentNext_rx (s : State) (t : Transfer) : (presentNext s t).rx = s.rx := rfl
@[simp] theorem presentNext_fault (s : State) (t : Transfer) : (presentNext s t).fault = s.fault := rfl
@[simp] theorem presentNext_faultInfo (s : State) (t : Transfer) : (presentNext s t).faultInfo = s.faultInfo := rfl
@[simp] theorem presentNext_telegram (s : State) (t : Transfer) : (presentNext s t).telegram = s.telegram := rfl
@[simp] theorem presentNext_pending (s : State) (t : Transfer) : (presentNext s t).pending = t :: s.pending := rfl
@[simp] theorem presentNext_outcome (s : State) (t : Transfer) : (presentNext s t).outcome = s.outcome := rfl
@[simp] theorem presentNext_result (s : State) (t : Transfer) : (presentNext s t).result = s.result := rfl

@[simp] theorem syncStage_samplingOffset (p : Params) (chunk : List Sample) (rx : Receiver) :
    (syncStage p chunk rx).samplingOffset = syncOffset chunk (template p) p.osf := rfl
@[simp] theorem syncStage_targetFrameLength (p : Params) (chunk : List Sample) (rx : Receiver) :
    (syncStage p chunk rx).targetFrameLength = rx.targetFrameLength := rfl
@[simp] theorem syncStage_frameComplete (p : Params) (chunk : List Sample) (rx : Receiver) :
    (syncStage p chunk rx).frameComplete = rx.frameComplete := rfl
@[simp] theorem syncStage_accumulatedBytes (p : Params) (chunk : List Sample) (rx : Receiver) :
    (syncStage p chunk rx).accumulatedBytes = rx.accumulatedBytes := rfl
@[simp] theorem syncStage_spilledBits (p : Params) (chunk : List Sample) (rx : Receiver) :
    (syncStage p chunk rx).spilledBits = rx.spilledBits := rfl
@[simp] theorem syncStage_spilledNibbles (p : Params) (chunk : List Sample) (rx : Receiver) :
    (syncStage p chunk rx).spilledNibbles = rx.spilledNibbles := rfl

@[simp] theorem retimeStage_samplingOffset (p : Params) (n : Nat) (rx : Receiver) :
    (retimeStage p n rx).samplingOffset = retimeOffset n rx.samplingOffset p.osf := rfl
@[simp] theorem retimeStage_targetFrameLength (p : Params) (n : Nat) (rx : Receiver) :
    (retimeStage p n rx).targetFrameLength = rx.targetFrameLength := rfl
@[simp] theorem retimeStage_frameComplete (p : Params) (n : Nat) (rx : Receiver) :
    (retimeStage p n rx).frameComplete = rx.frameComplete := rfl
@[simp] theorem retimeStage_accumulatedBytes (p : Params) (n : Nat) (rx : Receiver) :
    (retimeStage p n rx).accumulatedBytes = rx.accumulatedBytes := rfl
@[simp] theorem retimeStage_spilledBits (p : Params) (n : Nat) (rx : Receiver) :
    (retimeStage p n rx).spilledBits = rx.spilledBits := rfl
@[simp] theorem retimeStage_spilledNibbles (p : Params) (n : Nat) (rx : Receiver) :
    (retimeStage p n rx).spilledNibbles = rx.spilledNibbles := rfl

@[simp] theorem spillStage_samplingOffset (d : Decoded) (rx : Receiver) :
    (spillStage d rx).samplingOffset = rx.samplingOffset := rfl
@[simp] theorem spillStage_targetFrameLength (d : Decoded) (rx : Receiver) :
    (spillStage d rx).targetFrameLength = rx.targetFrameLength := rfl
@[simp] theorem spillStage_frameComplete (d : Decoded) (rx : Receiver) :
    (spillStage d rx).frameComplete = rx.frameComplete := rfl
@[simp] theorem spillStage_accumulatedBytes (d : Decoded) (rx : Receiver) :
    (spillStage d rx).accumulatedBytes = rx.accumulatedBytes := rfl
@[simp] theorem spillStage_spilledBits (d : Decoded) (rx : Receiver) :
    (spillStage d rx).spilledBits = d.2.1 := rfl
@[simp] theorem spillStage_spilledNibbles (d : Decoded) (rx : Receiver) :
    (spillStage d rx).spilledNibbles = d.2.2 := rfl

/-- `RESTART` leaves the receiver at its reset values (R181). -/
@[simp] theorem restartStage_eq (rx : Receiver) : restartStage rx = Receiver.reset := rfl

@[simp] theorem resetWith_cfg (cfg : Params) : (State.resetWith cfg).cfg = cfg := rfl
@[simp] theorem resetWith_rx (cfg : Params) : (State.resetWith cfg).rx = Receiver.reset := rfl
@[simp] theorem resetWith_fault (cfg : Params) : (State.resetWith cfg).fault = 0 := rfl
@[simp] theorem resetWith_faultInfo (cfg : Params) : (State.resetWith cfg).faultInfo = 0 := rfl
@[simp] theorem resetWith_telegram (cfg : Params) : (State.resetWith cfg).telegram = none := rfl
@[simp] theorem resetWith_pending (cfg : Params) : (State.resetWith cfg).pending = [] := rfl

end Sys2Proof.Machine
end

