-- ==== Sys2Proof/Laws/Ops.lean ====
section
/-! SUPPORT. What the shared operations can do, said once: for each test that comes before a command's work, the case in which the work
runs and everything an answer `next t` can mean. -/

namespace Sys2Proof.Machine

/-- `.next` is injective. -/
theorem next_inj {s t : State} : ((.next s : Answer) = .next t) ↔ s = t :=
  ⟨fun h => Host.Outcome.next.inj h, fun h => h ▸ rfl⟩

@[simp] theorem faulted_iff (s : State) : s.faulted = true ↔ s.fault ≠ 0 := by
  simp [State.faulted]

@[simp] theorem faulted_eq_false (s : State) : s.faulted = false ↔ s.fault = 0 := by
  simp [State.faulted]

theorem unlessFaulted_clear {s : State} (h : s.fault = 0) (run : Answer) : unlessFaulted s run = run := by
  simp [unlessFaulted, State.faulted, h]

theorem unlessFaulted_held {s : State} (h : s.fault ≠ 0) (run : Answer) : unlessFaulted s run = .next s.turnAway := by
  rw [unlessFaulted, if_pos ((faulted_iff s).2 h)]

theorem unlessFaulted_next {s t : State} {run : Answer} (h : unlessFaulted s run = .next t) :
    (s.fault ≠ 0 ∧ t = s.turnAway) ∨ (s.fault = 0 ∧ run = .next t) := by
  by_cases hf : s.fault = 0
  · exact .inr ⟨hf, by rwa [unlessFaulted_clear hf] at h⟩
  · rw [unlessFaulted_held hf, next_inj] at h
    exact .inl ⟨hf, h.symm⟩

theorem overlong_eq_false {bound : Option Nat} {n : Nat} : overlong bound n = false ↔ ∀ m ∈ bound, n ≤ m := by
  cases bound <;> simp [overlong]

theorem unlessOverlong_fits {bound : Option Nat} {n : Nat} (h : ∀ m ∈ bound, n ≤ m) (s : State) (run : Answer) :
    unlessOverlong bound n s run = run := by
  simp [unlessOverlong, overlong_eq_false.2 h]

theorem unlessOverlong_long {m n : Nat} (h : m < n) (s : State) (run : Answer) :
    unlessOverlong (some m) n s run = .next s.turnAway := by
  simp [unlessOverlong, overlong, h]

theorem unlessOverlong_next {bound : Option Nat} {n : Nat} {s t : State} {run : Answer}
    (h : unlessOverlong bound n s run = .next t) :
    t = s.turnAway ∨ ((∀ m ∈ bound, n ≤ m) ∧ run = .next t) := by
  by_cases ho : overlong bound n = true
  · simp only [unlessOverlong, ho, if_true, next_inj] at h
    exact .inl h.symm
  · have hf : overlong bound n = false := by simpa using ho
    exact .inr ⟨overlong_eq_false.1 hf, by rwa [unlessOverlong_fits (overlong_eq_false.1 hf)] at h⟩

theorem whenBuilt_valid {s : State} (h : s.cfg.Valid) (run : Answer) : whenBuilt s run = run := by
  simp only [whenBuilt, if_pos h]

theorem whenBuilt_next {s t : State} {run : Answer} (h : whenBuilt s run = .next t) :
    s.cfg.Valid ∧ run = .next t := by
  unfold whenBuilt at h
  split at h
  · exact ⟨‹_›, h⟩
  · cases h

theorem whenSamplesFit_fit {chunk : List Sample} {s : State} (h : ∀ x ∈ chunk, sampleFits s.cfg x = true)
    (run : Answer) : whenSamplesFit chunk s run = run := by
  simp only [whenSamplesFit, List.all_eq_true.2 h, if_true]

theorem whenSamplesFit_next {chunk : List Sample} {s t : State} {run : Answer}
    (h : whenSamplesFit chunk s run = .next t) :
    (∀ x ∈ chunk, sampleFits s.cfg x = true) ∧ run = .next t := by
  unfold whenSamplesFit at h
  split at h
  · exact ⟨List.all_eq_true.1 ‹_›, h⟩
  · cases h

theorem whenInDomain_ok {i : Instr} (h : i.wellFormed = true) (run : Answer) : whenInDomain i run = run := by
  simp only [whenInDomain, h, if_true]

theorem whenInDomain_next {i : Instr} {t : State} {run : Answer} (h : whenInDomain i run = .next t) :
    i.wellFormed = true ∧ run = .next t := by
  unfold whenInDomain at h
  split at h
  · exact ⟨‹_›, h⟩
  · cases h

theorem whenOffset_ok {rx : Receiver} (h : 0 ≤ rx.samplingOffset) (run : Answer) : whenOffset rx run = run := by
  simp only [whenOffset, if_pos h]

theorem whenOffset_next {rx : Receiver} {t : State} {run : Answer} (h : whenOffset rx run = .next t) :
    0 ≤ rx.samplingOffset ∧ run = .next t := by
  unfold whenOffset at h
  split at h
  · exact ⟨‹_›, h⟩
  · cases h

theorem returnValue_next {s t : State} {r : Result} (h : returnValue s r = .next t) : t = s.finish (some r) :=
  (next_inj.1 h).symm

/-- Fault entry writes the two fault registers and nothing else of the block (R163). -/
theorem raise_changes_only_fault (s : State) (k : FaultKind) (info : Byte) :
    (s.raise k info).rx = s.rx ∧ (s.raise k info).telegram = s.telegram ∧ (s.raise k info).cfg = s.cfg ∧
      (s.raise k info).pending = s.pending :=
  ⟨rfl, rfl, rfl, rfl⟩

theorem takeTransfer_nil {s : State} (h : s.pending = []) : takeTransfer s = none := by
  simp [takeTransfer, h]

theorem takeTransfer_cons {s : State} {t : Transfer} {rest : List Transfer} (h : s.pending = t :: rest) :
    takeTransfer s = some (t, { s with pending := rest }) := by
  simp [takeTransfer, h]

/-- Everything a step can be: idle, an instruction run on the state without its transfer, or a transfer that does not decode. -/
theorem step_cases (s : State) :
    (s.pending = [] ∧ step s = .next s) ∨
    ∃ t rest, s.pending = t :: rest ∧
      ((∃ i, decode t = .ok i ∧ step s = exec i { s with pending := rest }) ∨
       (∃ e, decode t = .error e ∧ step s = .refused (.undecodable e))) := by
  cases hp : s.pending with
  | nil => exact .inl ⟨rfl, by simp [step, takeTransfer_nil hp]⟩
  | cons t rest =>
    refine .inr ⟨t, rest, rfl, ?_⟩
    cases hd : decode t with
    | ok i => exact .inl ⟨i, rfl, by simp [step, takeTransfer_cons hp, hd]⟩
    | error e => exact .inr ⟨e, rfl, by simp [step, takeTransfer_cons hp, hd]⟩

end Sys2Proof.Machine
end

