-- ==== Sys2Proof/Laws/FrameAssembler.lean ====
section
/-! SUPPORT. The frame assembler: the range of `CALCSIZE` and everything `ASSEMBLE` can leave (`spec/43_frame_assembler.md`). -/

namespace Sys2Proof.Machine

/-- R133 (a): the length is in 2..289. -/
theorem calcSize_range (l : Byte) : 2 ≤ calcSize l ∧ calcSize l ≤ 289 := by
  revert l
  decide

theorem latchLength_known {t : Nat} (h : t ≠ 0) (acc : List Byte) : latchLength t acc = t := by
  cases t <;> first | rfl | exact absurd rfl h

theorem latchLength_first (l : Byte) (rest : List Byte) : latchLength 0 (l :: rest) = calcSize l := rfl

theorem latchLength_nothing : latchLength 0 [] = 0 := rfl

/-- The latched length is unknown only while nothing has been decoded. -/
theorem latchLength_eq_zero {t : Nat} {acc : List Byte} : latchLength t acc = 0 ↔ t = 0 ∧ acc = [] := by
  cases t with
  | zero =>
    cases acc with
    | nil => simp [latchLength_nothing]
    | cons l rest =>
      have := calcSize_range l
      simp only [latchLength_first, reduceCtorEq, and_false, iff_false]
      omega
  | succ t => simp [latchLength_known]

theorem latchLength_le {t : Nat} (h : t ≤ 289) (acc : List Byte) : latchLength t acc ≤ 289 := by
  cases t with
  | zero =>
    cases acc with
    | nil => simp [latchLength_nothing]
    | cons l rest => exact (calcSize_range l).2
  | succ t => rwa [latchLength_known (by omega)]

theorem frameReached_iff {t n : Nat} : frameReached t n = true ↔ t ≠ 0 ∧ t ≤ n := by
  simp [frameReached]

/-- `ASSEMBLE` writes the three frame registers and nothing else. -/
theorem assembleStage_frame (bytes : List Byte) (rx : Receiver) :
    (assembleStage bytes rx).samplingOffset = rx.samplingOffset ∧
    (assembleStage bytes rx).spilledBits = rx.spilledBits ∧
    (assembleStage bytes rx).spilledNibbles = rx.spilledNibbles ∧
    (assembleStage bytes rx).targetFrameLength = latchLength rx.targetFrameLength (rx.accumulatedBytes ++ bytes) := by
  unfold assembleStage
  dsimp only
  split <;> exact ⟨rfl, rfl, rfl, rfl⟩

/-- Everything `ASSEMBLE` can leave in the frame registers (R130): a frame cut to its length, or the bytes so far. -/
theorem assembleStage_cases (bytes : List Byte) (rx : Receiver) :
    (latchLength rx.targetFrameLength (rx.accumulatedBytes ++ bytes) ≠ 0 ∧
      latchLength rx.targetFrameLength (rx.accumulatedBytes ++ bytes) ≤ (rx.accumulatedBytes ++ bytes).length ∧
      (assembleStage bytes rx).frameComplete = true ∧
      (assembleStage bytes rx).accumulatedBytes = (rx.accumulatedBytes ++ bytes).take
        (latchLength rx.targetFrameLength (rx.accumulatedBytes ++ bytes))) ∨
    ((latchLength rx.targetFrameLength (rx.accumulatedBytes ++ bytes) = 0 ∨
      (rx.accumulatedBytes ++ bytes).length < latchLength rx.targetFrameLength (rx.accumulatedBytes ++ bytes)) ∧
      (assembleStage bytes rx).frameComplete = rx.frameComplete ∧
      (assembleStage bytes rx).accumulatedBytes = rx.accumulatedBytes ++ bytes) := by
  unfold assembleStage
  dsimp only
  split
  · rename_i h
    rw [frameReached_iff] at h
    exact .inl ⟨h.1, h.2, rfl, rfl⟩
  · rename_i h
    rw [frameReached_iff] at h
    exact .inr ⟨by omega, rfl, rfl⟩

/-- The frame buffer keeps its bound. -/
theorem assembleStage_length_le {bytes : List Byte} {rx : Receiver} (h : rx.targetFrameLength ≤ 289) :
    (assembleStage bytes rx).accumulatedBytes.length ≤ 289 := by
  have hl := latchLength_le h (rx.accumulatedBytes ++ bytes)
  rcases assembleStage_cases bytes rx with ⟨_, _, _, ha⟩ | ⟨h0 | hlt, _, ha⟩
  · rw [ha, List.length_take]
    omega
  · rw [ha, (latchLength_eq_zero.1 h0).2]
    simp
  · rw [ha]
    omega

end Sys2Proof.Machine
end

