-- ==== Sys2Proof/Laws/LineDecoder.lean ====
section
/-! SUPPORT. The line decoder: what grouping, translation, pairing and the whole of `DECODE36` answer (`spec/42_line_decoder.md`). -/

namespace Sys2Proof.Machine

/-! ### Step 1: grouping (R121) -/

theorem groupBits_length (bits : List Bool) :
    (groupBits bits).1.length = bits.length / 6 ∧ (groupBits bits).2.length = bits.length % 6 := by
  induction bits using groupBits.induct with
  | case1 b0 b1 b2 b3 b4 b5 rest ih =>
    simp only [groupBits, List.length_cons]
    omega
  | case2 rest h =>
    have hlt : rest.length < 6 := by
      rcases rest with _ | ⟨_, _ | ⟨_, _ | ⟨_, _ | ⟨_, _ | ⟨_, _ | ⟨_, r⟩⟩⟩⟩⟩⟩
      all_goals first | exact absurd rfl (h _ _ _ _ _ _ _) | simp
    rw [groupBits]
    · simp
      omega
    · exact h

theorem groupBits_short {bits : List Bool} (h : bits.length < 6) : groupBits bits = ([], bits) := by
  rcases bits with _ | ⟨_, _ | ⟨_, _ | ⟨_, _ | ⟨_, _ | ⟨_, _ | ⟨_, r⟩⟩⟩⟩⟩⟩ <;> simp at h <;> first | rfl | omega

/-- Grouping does not see where a stream is cut: the remainder of the first part goes in front of the second (R126 c). -/
theorem groupBits_append (a b : List Bool) :
    groupBits (a ++ b) =
      ((groupBits a).1 ++ (groupBits ((groupBits a).2 ++ b)).1, (groupBits ((groupBits a).2 ++ b)).2) := by
  induction a using groupBits.induct with
  | case1 b0 b1 b2 b3 b4 b5 rest ih => simp [groupBits, ih]
  | case2 rest h =>
    rw [show groupBits rest = ([], rest) from by rw [groupBits]; exact h]
    simp

/-! ### Step 4: translation (R124) -/

theorem translate_ok {cw : Codeword} {n : Nibble} : translate cw = .ok n ↔ lut36 cw = some n := by
  cases hc : lut36 cw <;> simp [translate, hc]

theorem translate_error {cw e : Codeword} : translate cw = .error e ↔ lut36 cw = none ∧ e = cw := by
  cases hc : lut36 cw <;> simp [translate, hc, eq_comm]

theorem translateAll_cons (cw : Codeword) (rest : List Codeword) :
    translateAll (cw :: rest) =
      match translate cw with
      | .error e => .error e
      | .ok n =>
        match translateAll rest with
        | .error e => .error e
        | .ok ns => .ok (n :: ns) := rfl

/-- Translation of a sequence succeeds exactly with the nibbles of its codewords in order. -/
theorem translateAll_ok {cws : List Codeword} {ns : List Nibble} :
    translateAll cws = .ok ns ↔ cws.map lut36 = ns.map some := by
  induction cws generalizing ns with
  | nil => cases ns <;> simp [translateAll]
  | cons cw rest ih =>
    rw [translateAll_cons]
    cases hc : translate cw with
    | error e => cases ns <;> simp [(translate_error.1 hc).1]
    | ok n =>
      rw [translate_ok] at hc
      cases hr : translateAll rest with
      | error e =>
        cases ns with
        | nil => simp
        | cons m ms =>
          simp only [List.map_cons, hc, List.cons.injEq, Option.some.injEq, reduceCtorEq, false_iff, not_and]
          exact fun _ hms => by simp [ih.2 hms] at hr
      | ok ms =>
        cases ns with
        | nil => simp
        | cons m ks =>
          simp only [Except.ok.injEq, List.cons.injEq, List.map_cons, hc, Option.some.injEq]
          rw [← ih, hr, Except.ok.injEq]

/-- It fails exactly with the first codeword that is not valid (R124, D26). -/
theorem translateAll_error {cws : List Codeword} {e : Codeword} :
    translateAll cws = .error e ↔
      ∃ older newer, cws = older ++ e :: newer ∧ (∀ x ∈ older, lut36 x ≠ none) ∧ lut36 e = none := by
  induction cws with
  | nil => simp [translateAll]
  | cons cw rest ih =>
    rw [translateAll_cons]
    constructor
    · intro h
      cases hc : translate cw with
      | error e' =>
        rw [hc] at h
        obtain ⟨hn, rfl⟩ := translate_error.1 hc
        cases h
        exact ⟨[], rest, rfl, by simp, hn⟩
      | ok n =>
        rw [hc] at h
        cases hr : translateAll rest with
        | error e' =>
          rw [hr] at h
          cases h
          obtain ⟨older, newer, rfl, ho, he⟩ := ih.1 hr
          refine ⟨cw :: older, newer, rfl, ?_, he⟩
          simpa [translate_ok.1 hc] using ho
        | ok ns => rw [hr] at h; cases h
    · rintro ⟨older, newer, heq, ho, he⟩
      cases older with
      | nil =>
        obtain ⟨rfl, rfl⟩ : cw = e ∧ rest = newer := by simpa using heq
        rw [translate_error.2 ⟨he, rfl⟩]
      | cons o os =>
        obtain ⟨rfl, rfl⟩ : cw = o ∧ rest = os ++ e :: newer := by simpa using heq
        obtain ⟨n, hn⟩ := Option.ne_none_iff_exists'.1 (ho cw (by simp))
        rw [translate_ok.2 hn, ih.2 ⟨os, newer, rfl, fun x hx => ho x (by simp [hx]), he⟩]

theorem translateAll_length {cws : List Codeword} {ns : List Nibble} (h : translateAll cws = .ok ns) :
    ns.length = cws.length := by
  simpa using (congrArg List.length (translateAll_ok.1 h)).symm

theorem translateAll_append {a b : List Codeword} {na nb : List Nibble}
    (ha : translateAll a = .ok na) (hb : translateAll b = .ok nb) : translateAll (a ++ b) = .ok (na ++ nb) := by
  rw [translateAll_ok] at *
  simp [ha, hb]

/-! ### Step 5: pairing (R125) -/

theorem pack8_length (ns : List Nibble) : (pack8 ns).length = ns.length / 2 := by
  induction ns using pack8.induct with
  | case1 hi lo rest ih => simp only [pack8, List.length_cons]; omega
  | case2 ns h =>
    have : ns.length < 2 := by
      rcases ns with _ | ⟨_, _ | ⟨_, r⟩⟩ <;> simp at *
    rw [pack8]
    · simp; omega
    · exact h

theorem pack8_append {a b : List Nibble} (h : a.length % 2 = 0) : pack8 (a ++ b) = pack8 a ++ pack8 b := by
  induction a using pack8.induct with
  | case1 hi lo rest ih =>
    simp only [List.length_cons] at h
    simp [pack8, ih (by omega)]
  | case2 ns hn =>
    rcases ns with _ | ⟨x, _ | ⟨y, r⟩⟩
    · simp [pack8]
    · simp at h
    · exact absurd rfl (hn x y r)

theorem byteOfNibbles_toNat (hi lo : Nibble) : (byteOfNibbles hi lo).toNat = 16 * hi.toNat + lo.toNat := by
  revert hi lo
  decide

/-! ### Step 3: hold-back (R123) -/

theorem holdBack_eq (all : List Codeword) :
    holdBack all = (all.take (2 * (all.length / 2)), all.drop (2 * (all.length / 2))) := by
  unfold holdBack
  split
  · rw [show all.length - 1 = 2 * (all.length / 2) by omega]
  · rw [show 2 * (all.length / 2) = all.length by omega]
    simp

theorem holdBack_even (all : List Codeword) : (holdBack all).1.length % 2 = 0 := by
  rw [holdBack_eq]
  simp
  omega

theorem holdBack_append (all : List Codeword) : (holdBack all).1 ++ (holdBack all).2 = all := by
  simp [holdBack_eq]

theorem holdBack_held_length (all : List Codeword) : (holdBack all).2.length = all.length % 2 := by
  rw [holdBack_eq]
  simp
  omega

/-! ### DECODE36 as a whole (R120) -/

/-- Everything a `DECODE36` that does not raise can answer. -/
theorem decode36_ok {sb bits : List Bool} {sn : List Codeword} {d : Decoded} :
    decode36 sb sn bits = .ok d ↔
      ∃ ns, translateAll (holdBack (sn ++ (groupBits (sb ++ bits)).1.map pack6)).1 = .ok ns ∧
        d = (pack8 ns, (groupBits (sb ++ bits)).2, (holdBack (sn ++ (groupBits (sb ++ bits)).1.map pack6)).2) := by
  unfold decode36
  dsimp only
  cases translateAll (holdBack (sn ++ (groupBits (sb ++ bits)).1.map pack6)).1 <;> simp [eq_comm]

/-- Everything a `DECODE36` that raises can answer. -/
theorem decode36_error {sb bits : List Bool} {sn : List Codeword} {e : Codeword} :
    decode36 sb sn bits = .error e ↔
      translateAll (holdBack (sn ++ (groupBits (sb ++ bits)).1.map pack6)).1 = .error e := by
  unfold decode36
  dsimp only
  cases translateAll (holdBack (sn ++ (groupBits (sb ++ bits)).1.map pack6)).1 <;> simp

/-- The codeword that `InvalidLineCode` is raised with is not in the table. -/
theorem decode36_error_illegal {sb bits : List Bool} {sn : List Codeword} {e : Codeword}
    (h : decode36 sb sn bits = .error e) : lut36 e = none := by
  obtain ⟨_, _, _, _, he⟩ := translateAll_error.1 (decode36_error.1 h)
  exact he

/-- Fewer than 6 bits and fewer than 2 codewords are carried over (R126 b). -/
theorem decode36_carries_less {sb bits : List Bool} {sn : List Codeword} {d : Decoded}
    (h : decode36 sb sn bits = .ok d) : d.2.1.length < 6 ∧ d.2.2.length < 2 := by
  obtain ⟨ns, _, rfl⟩ := decode36_ok.1 h
  refine ⟨?_, ?_⟩
  · simp only [(groupBits_length _).2]
    omega
  · simp only [holdBack_held_length]
    omega

/-- `faultInfo` of `InvalidLineCode` gives the codeword back. -/
theorem zextCodeword_setWidth (cw : Codeword) : (zextCodeword cw).setWidth 6 = cw := by
  revert cw
  decide

theorem zextCodeword_lt (cw : Codeword) : (zextCodeword cw).toNat < 64 := by
  revert cw
  decide

/-- Everything that translating one codeword can answer. -/
theorem translateCodeword_next {cw : Codeword} {s t : State} (h : translateCodeword cw s = .next t) :
    (s.fault ≠ 0 ∧ t = s.turnAway) ∨
    (s.fault = 0 ∧ ∃ n, lut36 cw = some n ∧ t = s.finish (some (.nibble n))) ∨
    (s.fault = 0 ∧ lut36 cw = none ∧ t = s.raise .invalidLineCode (zextCodeword cw)) := by
  rcases unlessFaulted_next h with h | ⟨hf, h⟩
  · exact .inl h
  · cases hc : translate cw with
    | ok n =>
      rw [hc] at h
      exact .inr (.inl ⟨hf, n, translate_ok.1 hc, returnValue_next h⟩)
    | error e =>
      rw [hc] at h
      rw [(translate_error.1 hc).2] at h
      exact .inr (.inr ⟨hf, (translate_error.1 hc).1, (next_inj.1 h).symm⟩)

/-- Everything that `DECODE36` run by itself can answer. -/
theorem execDecode36_next {bits : List Bool} {s t : State} (h : execDecode36 bits s = .next t) :
    (s.fault ≠ 0 ∧ t = s.turnAway) ∨
    (s.fault = 0 ∧ ∃ d, decode36 s.rx.spilledBits s.rx.spilledNibbles bits = .ok d ∧
      t = (s.setReceiver (spillStage d s.rx)).finish (some (.bytes d.1))) ∨
    (s.fault = 0 ∧ ∃ cw, decode36 s.rx.spilledBits s.rx.spilledNibbles bits = .error cw ∧
      t = s.raise .invalidLineCode (zextCodeword cw)) := by
  rcases unlessFaulted_next h with h | ⟨hf, h⟩
  · exact .inl h
  · cases hd : decode36 s.rx.spilledBits s.rx.spilledNibbles bits with
    | ok d =>
      rw [hd] at h
      exact .inr (.inl ⟨hf, d, rfl, (next_inj.1 h).symm⟩)
    | error cw =>
      rw [hd] at h
      exact .inr (.inr ⟨hf, cw, rfl, (next_inj.1 h).symm⟩)

end Sys2Proof.Machine
end

