-- ==== Sys2Proof/Laws/Synchronizer.lean ====
section
/-! SUPPORT. The synchronizer: lengths, and what the peak search answers (`spec/40_synchronizer.md`). -/

namespace Sys2Proof.Machine

theorem genPreamble_length (bits : List Int) (osf : Nat) : (genPreamble bits osf).length = bits.length * osf := by
  induction bits with
  | nil => simp [genPreamble]
  | cons b rest ih =>
    simp only [genPreamble, List.flatMap_cons, List.length_append, List.length_replicate, List.length_cons] at ih ⊢
    rw [ih, Nat.succ_mul, Nat.add_comm]

/-- `M = NSYM × OSF` (R8). -/
theorem template_length (p : Params) : (template p).length = p.preambleBits.length * p.osf :=
  genPreamble_length _ _

theorem template_ne_nil {p : Params} (h : p.Valid) : template p ≠ [] := by
  intro he
  have := congrArg List.length he
  rw [template_length, List.length_nil, Nat.mul_eq_zero] at this
  rcases this with h0 | h0
  · exact h.2.2.1 (List.length_eq_zero_iff.1 h0)
  · exact absurd h0 (Nat.pos_iff_ne_zero.1 h.1)

theorem xcorr_length (chunk tmpl : List Int) : (xcorr chunk tmpl).length = chunk.length + tmpl.length - 1 := by
  simp [xcorr]

theorem xcorr_getElem (chunk tmpl : List Int) (k : Nat) (h : k < (xcorr chunk tmpl).length) :
    (xcorr chunk tmpl)[k] = correlationAt chunk tmpl k := by
  simp [xcorr]

/-- A non-empty sequence of integers has a greatest magnitude. -/
theorem exists_peak {cs : List Int} (h : cs ≠ []) : ∃ v ∈ cs, ∀ w ∈ cs, w.natAbs ≤ v.natAbs := by
  induction cs with
  | nil => exact absurd rfl h
  | cons x xs ih =>
    by_cases hx : xs = []
    · exact ⟨x, by simp, by simp [hx]⟩
    · obtain ⟨v, hv, hmax⟩ := ih hx
      by_cases hc : x.natAbs ≤ v.natAbs
      · exact ⟨v, by simp [hv], by simpa [hc] using hmax⟩
      · exact ⟨x, by simp, by
          simp only [List.mem_cons, forall_eq_or_imp, le_refl, true_and]
          exact fun w hw => by have := hmax w hw; omega⟩

/-- `k*` is an index of the sequence, has the greatest magnitude in it, and is the first to have it (R102). -/
theorem peakIndex_spec {cs : List Int} (h : cs ≠ []) :
    ∃ hk : peakIndex cs < cs.length,
      (∀ w ∈ cs, w.natAbs ≤ (cs[peakIndex cs]).natAbs) ∧
      ∀ (j : Nat) (hj : j < cs.length), j < peakIndex cs → (cs[j]).natAbs < (cs[peakIndex cs]).natAbs := by
  have hk : peakIndex cs < cs.length := by
    obtain ⟨v, hv, hmax⟩ := exists_peak h
    exact List.findIdx_lt_length_of_exists ⟨v, hv, by simpa using hmax⟩
  have hmax : ∀ w ∈ cs, w.natAbs ≤ (cs[peakIndex cs]).natAbs := by
    have := List.findIdx_getElem (w := hk)
    simp only [List.all_eq_true, decide_eq_true_eq] at this
    exact this
  refine ⟨hk, hmax, fun j hj hlt => ?_⟩
  have hnot := List.not_of_lt_findIdx (p := fun v : Int => cs.all fun w => decide (w.natAbs ≤ v.natAbs)) hlt
  by_contra hge
  refine Bool.false_ne_true (hnot.symm.trans (List.all_eq_true.2 fun w hw => decide_eq_true ?_))
  have := hmax w hw
  omega

/-- `SYNC` leaves an offset that is not negative. -/
theorem syncOffset_nonneg (chunk tmpl : List Int) (osf : Nat) : 0 ≤ syncOffset chunk tmpl osf := by
  unfold syncOffset
  omega

end Sys2Proof.Machine
end

