-- ==== Sys2Proof/Laws/TelegramParser.lean ====
section
/-! SUPPORT. The telegram parser: everything `parse` can answer, and how long `STRIP` and the export are
(`spec/44_telegram_parser.md`). -/

namespace Sys2Proof.Machine

theorem parseRaw_error {raw : List Byte} {n : Nat} : parseRaw raw = .error n ↔ raw.length ≤ 12 ∧ n = raw.length := by
  unfold parseRaw
  split <;> simp_all [eq_comm]

theorem parseRaw_short {raw : List Byte} (h : raw.length ≤ 12) : parseRaw raw = .error raw.length :=
  parseRaw_error.2 ⟨h, rfl⟩

theorem parseRaw_ok {raw : List Byte} {t : Telegram} (h : parseRaw raw = .ok t) :
    12 < raw.length ∧ t.payload = (strip raw (byteAt raw 0)).drop 1 := by
  unfold parseRaw at h
  split at h
  · cases h
  · cases h
    exact ⟨by omega, rfl⟩

theorem clip_length_le {α : Type} (s : List α) (a b : Nat) : (clip s a b).length ≤ b - a := by
  simp only [clip, List.length_take, List.length_drop]
  omega

/-- A block gives at most 16 bytes (R142). -/
theorem blockData_length_le (raw : List Byte) (l : Byte) (j : Nat) :
    (blockData raw l j).length ≤ if j + 1 < blockCount l then 16 else lastBlockSize l := by
  have := clip_length_le raw (12 + 18 * j) (12 + 18 * j + if j + 1 < blockCount l then 16 else lastBlockSize l)
  rw [blockData]
  omega

/-- The blocks of a frame hold at most 256 data bytes (R142 corner case c). -/
theorem blocks_total_le (l : Byte) :
    ((List.range (blockCount l)).map fun j => if j + 1 < blockCount l then 16 else lastBlockSize l).sum ≤ 256 := by
  revert l
  decide

theorem strip_length_le (raw : List Byte) (l : Byte) : (strip raw l).length ≤ 256 := by
  refine le_trans ?_ (blocks_total_le l)
  rw [strip, List.length_flatMap]
  exact List.sum_le_sum fun j _ => blockData_length_le raw l j

/-- The payload fits its register (R33). -/
theorem parseRaw_payload_le {raw : List Byte} {t : Telegram} (h : parseRaw raw = .ok t) : t.payload.length ≤ 255 := by
  have := strip_length_le raw (byteAt raw 0)
  rw [(parseRaw_ok h).2, List.length_drop]
  omega

/-- `11 + len(payload)` bytes (R79). -/
theorem noCrcExport_length (t : Telegram) : (noCrcExport t).length = 11 + t.payload.length := by
  simp [noCrcExport, halfBytes, addressBytes]
  omega

/-- Everything that `parse` run by itself can answer. -/
theorem execParseFn_next {raw : List Byte} {s t : State} (h : execParseFn raw s = .next t) :
    (s.fault ≠ 0 ∧ t = s.turnAway) ∨
    (s.fault = 0 ∧ raw.length ≤ 12 ∧ t = s.raise .truncatedFrame (BitVec.ofNat 8 raw.length)) ∨
    (s.fault = 0 ∧ ∃ tel, parseRaw raw = .ok tel ∧ t = s.finish (some (.telegram tel))) := by
  rcases unlessFaulted_next h with h | ⟨hf, h⟩
  · exact .inl h
  · cases hp : parseRaw raw with
    | error n =>
      rw [hp] at h
      obtain ⟨hle, rfl⟩ := parseRaw_error.1 hp
      exact .inr (.inl ⟨hf, hle, (next_inj.1 h).symm⟩)
    | ok tel =>
      rw [hp] at h
      exact .inr (.inr ⟨hf, tel, rfl, returnValue_next h⟩)

end Sys2Proof.Machine
end

