-- ==== Sys2Proof/Laws/TimingRecovery.lean ====
section
/-! SUPPORT. Timing recovery: how sampling meets a cut stream, and where `RETIME` lands (`spec/41_timing_recovery.md`). -/

namespace Sys2Proof.Machine

theorem sampleBits_nil (osf skip : Nat) : sampleBits osf skip [] = [] := by
  cases skip <;> rfl

theorem sampleBits_zero (osf : Nat) (x : Sample) (xs : List Sample) :
    sampleBits osf 0 (x :: xs) = bitOf x :: sampleBits osf (osf - 1) xs := rfl

theorem sampleBits_succ (osf skip : Nat) (x : Sample) (xs : List Sample) :
    sampleBits osf (skip + 1) (x :: xs) = sampleBits osf skip xs := rfl

/-- A grid point past the chunk samples nothing (R110). -/
theorem sampleBits_past (osf : Nat) : ∀ (skip : Nat) (chunk : List Sample), chunk.length ≤ skip →
    sampleBits osf skip chunk = []
  | skip, [], _ => sampleBits_nil osf skip
  | 0, _ :: _, h => by simp at h
  | skip + 1, _ :: xs, h => sampleBits_past osf skip xs (by simpa using h)

/-- Samples before the first grid point are not looked at (R110). -/
theorem sampleBits_skip (osf : Nat) : ∀ (before after : List Sample) (skip : Nat),
    sampleBits osf (before.length + skip) (before ++ after) = sampleBits osf skip after
  | [], after, skip => by simp
  | x :: xs, after, skip => by
    rw [List.length_cons, List.cons_append, show xs.length + 1 + skip = xs.length + skip + 1 by omega, sampleBits_succ]
    exact sampleBits_skip osf xs after skip

/-- The grid is continued across a cut (R113): the rest of the stream is sampled from `(s − n) mod OSF`. -/
theorem sampleBits_append {osf : Nat} (hosf : 0 < osf) (b : List Sample) : ∀ (a : List Sample) (skip : Nat), skip < osf →
    sampleBits osf skip (a ++ b) =
      sampleBits osf skip a ++ sampleBits osf (((skip : Int) - (a.length : Int)) % (osf : Int)).toNat b
  | [], skip, h => by
    have : ((skip : Int) - (([] : List Sample).length : Int)) % (osf : Int) = skip := by
      rw [List.length_nil]
      simpa using Int.emod_eq_of_lt (by omega) (by omega)
    rw [this, sampleBits_nil]
    simp
  | x :: xs, 0, h => by
    rw [List.cons_append, sampleBits_zero, sampleBits_zero, sampleBits_append hosf b xs (osf - 1) (by omega)]
    have : (((osf - 1 : Nat) : Int) - (xs.length : Int)) % (osf : Int) =
        (((0 : Nat) : Int) - ((x :: xs).length : Int)) % (osf : Int) := by
      rw [show ((osf - 1 : Nat) : Int) - (xs.length : Int) =
        (((0 : Nat) : Int) - ((x :: xs).length : Int)) + (osf : Int) by
          rw [List.length_cons]
          omega]
      exact Int.add_emod_right _ _
    rw [this]
    rfl
  | x :: xs, skip + 1, h => by
    rw [List.cons_append, sampleBits_succ, sampleBits_succ, sampleBits_append hosf b xs skip (by omega)]
    rw [show ((skip + 1 : Nat) : Int) - ((x :: xs).length : Int) = (skip : Int) - (xs.length : Int) by
      rw [List.length_cons]
      omega]

/-- A positive factor changes no bit decision (R73). -/
theorem sampleBits_scale {a : Int} (ha : 0 < a) (osf : Nat) : ∀ (skip : Nat) (chunk : List Sample),
    sampleBits osf skip (chunk.map (a * ·)) = sampleBits osf skip chunk
  | skip, [] => by simp [sampleBits_nil]
  | 0, x :: xs => by
    rw [List.map_cons, sampleBits_zero, sampleBits_zero, sampleBits_scale ha osf (osf - 1) xs]
    congr 1
    simp only [bitOf, decide_eq_decide]
    exact ⟨fun h => by_contra fun hn => absurd (mul_nonpos_of_nonneg_of_nonpos ha.le (not_lt.1 hn)) (not_le.2 h),
      fun h => mul_pos ha h⟩
  | skip + 1, _ :: xs => by
    rw [List.map_cons, sampleBits_succ, sampleBits_succ, sampleBits_scale ha osf skip xs]

/-- `RETIME` lands in `[0, OSF)` (R111). -/
theorem retimeOffset_range {osf : Nat} (h : 0 < osf) (n : Nat) (s : Int) :
    0 ≤ retimeOffset n s osf ∧ retimeOffset n s osf < osf :=
  ⟨Int.emod_nonneg _ (by omega), Int.emod_lt_of_pos _ (by omega)⟩

end Sys2Proof.Machine
end

