-- ==== Sys2Proof/Laws/Commands.lean ====
section
/-! SUPPORT. The host commands: the order of the stages and everything each command can answer (`spec/45_host_commands.md`). -/

namespace Sys2Proof.Machine

theorem synchronized_iff (rx : Receiver) : rx.synchronized = true ↔ rx.samplingOffset ≠ -1 := by
  simp [Receiver.synchronized]

/-- Inside a frame neither `RESTART` nor `SYNC` runs (R151 d). -/
theorem alignStages_inFrame {rx : Receiver} (hc : rx.frameComplete = false) (hs : rx.samplingOffset ≠ -1)
    (p : Params) (chunk : List Sample) : alignStages p chunk rx = rx := by
  simp [alignStages, hc, (synchronized_iff rx).2 hs]

/-- Before a frame `SYNC` runs alone. -/
theorem alignStages_unsynchronized {rx : Receiver} (hc : rx.frameComplete = false) (hs : rx.samplingOffset = -1)
    (p : Params) (chunk : List Sample) : alignStages p chunk rx = syncStage p chunk rx := by
  simp [alignStages, hc, Receiver.synchronized, hs]

/-- After a frame `RESTART` runs and then `SYNC`. -/
theorem alignStages_complete {rx : Receiver} (hc : rx.frameComplete = true) (p : Params) (chunk : List Sample) :
    alignStages p chunk rx = syncStage p chunk Receiver.reset := by
  simp [alignStages, hc, Receiver.synchronized, Receiver.reset]

/-- Everything the first two stages can leave. -/
theorem alignStages_cases (p : Params) (chunk : List Sample) (rx : Receiver) :
    (rx.frameComplete = false ∧ rx.samplingOffset ≠ -1 ∧ alignStages p chunk rx = rx) ∨
    (rx.frameComplete = false ∧ rx.samplingOffset = -1 ∧ alignStages p chunk rx = syncStage p chunk rx) ∨
    (rx.frameComplete = true ∧ alignStages p chunk rx = syncStage p chunk Receiver.reset) := by
  cases hc : rx.frameComplete with
  | false =>
    by_cases hs : rx.samplingOffset = -1
    · exact .inr (.inl ⟨rfl, hs, alignStages_unsynchronized hc hs p chunk⟩)
    · exact .inl ⟨rfl, hs, alignStages_inFrame hc hs p chunk⟩
  | true => exact .inr (.inr ⟨rfl, alignStages_complete hc p chunk⟩)

/-- No complete frame is left once the first two stages have run. -/
theorem alignStages_not_complete (p : Params) (chunk : List Sample) (rx : Receiver) :
    (alignStages p chunk rx).frameComplete = false := by
  rcases alignStages_cases p chunk rx with ⟨hc, _, h⟩ | ⟨hc, _, h⟩ | ⟨_, h⟩ <;> rw [h]
  · exact hc
  · exact hc
  · rfl

/-- The offset that `SAMPLE` starts from is not negative, from every offset that R21 allows. -/
theorem alignStages_offset_nonneg {rx : Receiver} (h : -1 ≤ rx.samplingOffset ∨ rx.frameComplete = true)
    (p : Params) (chunk : List Sample) : 0 ≤ (alignStages p chunk rx).samplingOffset := by
  rcases alignStages_cases p chunk rx with ⟨hc, hs, ha⟩ | ⟨_, _, ha⟩ | ⟨_, ha⟩ <;> rw [ha]
  · rcases h with h | h
    · omega
    · simp [hc] at h
  · exact syncOffset_nonneg _ _ _
  · exact syncOffset_nonneg _ _ _

/-- Everything the last four stages can leave when `DECODE36` does not raise. -/
theorem receiveStages_ok {p : Params} {chunk : List Sample} {rx rx' : Receiver} :
    receiveStages p chunk rx = .ok rx' ↔
      ∃ d, decode36 rx.spilledBits rx.spilledNibbles (sampleBits p.osf rx.samplingOffset.toNat chunk) = .ok d ∧
        rx' = assembleStage d.1 (spillStage d (retimeStage p chunk.length rx)) := by
  unfold receiveStages
  dsimp only [retimeStage_spilledBits, retimeStage_spilledNibbles]
  cases decode36 rx.spilledBits rx.spilledNibbles (sampleBits p.osf rx.samplingOffset.toNat chunk) <;> simp [eq_comm]

/-- The last four stages raise exactly when `DECODE36` does. -/
theorem receiveStages_error {p : Params} {chunk : List Sample} {rx : Receiver} {cw : Codeword} :
    receiveStages p chunk rx = .error cw ↔
      decode36 rx.spilledBits rx.spilledNibbles (sampleBits p.osf rx.samplingOffset.toNat chunk) = .error cw := by
  unfold receiveStages
  dsimp only [retimeStage_spilledBits, retimeStage_spilledNibbles]
  cases decode36 rx.spilledBits rx.spilledNibbles (sampleBits p.osf rx.samplingOffset.toNat chunk) <;> simp

/-- `FEED` on a chunk it accepts is its stages, committed or not committed. -/
theorem feedCommand_accepted {chunk : List Sample} {s : State} (h : FeedAccepted chunk s) :
    feedCommand chunk s =
      match feedStages s.cfg chunk s.rx with
      | .error cw => .next (s.raise .invalidLineCode (zextCodeword cw))
      | .ok rx => .next ((s.setReceiver rx).finish none) := by
  obtain ⟨hf, hv, ⟨hne, hfit⟩, hmax, hoff⟩ := h
  rw [feedCommand, unlessFaulted_clear hf, unlessOverlong_fits hmax, if_neg hne, whenBuilt_valid hv,
    whenSamplesFit_fit hfit, feedChunk,
    whenOffset_ok (alignStages_offset_nonneg hoff s.cfg chunk)]
  rfl

/-- Everything a `FEED` can answer. -/
theorem feedCommand_next {chunk : List Sample} {s t : State} (h : feedCommand chunk s = .next t) :
    t = s.turnAway ∨
    (s.fault = 0 ∧ chunk = [] ∧ t = s.finish none) ∨
    (s.fault = 0 ∧ chunk ≠ [] ∧ s.cfg.Valid ∧ (∀ x ∈ chunk, sampleFits s.cfg x = true) ∧
      (∀ m ∈ s.cfg.chunkMax, chunk.length ≤ m) ∧ 0 ≤ (alignStages s.cfg chunk s.rx).samplingOffset ∧
      ((∃ rx, feedStages s.cfg chunk s.rx = .ok rx ∧ t = (s.setReceiver rx).finish none) ∨
       (∃ cw, feedStages s.cfg chunk s.rx = .error cw ∧ t = s.raise .invalidLineCode (zextCodeword cw)))) := by
  rcases unlessFaulted_next h with ⟨_, h⟩ | ⟨hf, h⟩
  · exact .inl h
  rcases unlessOverlong_next h with h | ⟨hmax, h⟩
  · exact .inl h
  by_cases hne : chunk = []
  · rw [if_pos hne] at h
    exact .inr (.inl ⟨hf, hne, (next_inj.1 h).symm⟩)
  rw [if_neg hne] at h
  obtain ⟨hv, h⟩ := whenBuilt_next h
  obtain ⟨hfit, h⟩ := whenSamplesFit_next h
  obtain ⟨hoff, h⟩ := whenOffset_next h
  refine .inr (.inr ⟨hf, hne, hv, hfit, hmax, hoff, ?_⟩)
  cases hr : receiveStages s.cfg chunk (alignStages s.cfg chunk s.rx) with
  | error cw =>
    rw [hr] at h
    exact .inr ⟨cw, hr, (next_inj.1 h).symm⟩
  | ok rx =>
    rw [hr] at h
    exact .inl ⟨rx, hr, (next_inj.1 h).symm⟩

/-- `PARSE` on an operand it accepts. -/
theorem parseCommand_accepted {raw : List Byte} {s : State} (h : ParseAccepted raw s) :
    parseCommand raw s =
      match parseRaw raw with
      | .error n => .next (s.raise .truncatedFrame (BitVec.ofNat 8 n))
      | .ok t => .next ((s.setTelegram t).finish none) := by
  rw [parseCommand, unlessFaulted_clear h.1, unlessOverlong_fits h.2]
  rfl

/-- Everything a `PARSE` can answer. -/
theorem parseCommand_next {raw : List Byte} {s t : State} (h : parseCommand raw s = .next t) :
    t = s.turnAway ∨
    (s.fault = 0 ∧ raw.length ≤ 12 ∧ t = s.raise .truncatedFrame (BitVec.ofNat 8 raw.length)) ∨
    (s.fault = 0 ∧ ∃ tel, parseRaw raw = .ok tel ∧ t = (s.setTelegram tel).finish none) := by
  rcases unlessFaulted_next h with ⟨_, h⟩ | ⟨hf, h⟩
  · exact .inl h
  rcases unlessOverlong_next h with h | ⟨_, h⟩
  · exact .inl h
  cases hp : parseRaw raw with
  | error n =>
    rw [hp] at h
    obtain ⟨hle, rfl⟩ := parseRaw_error.1 hp
    exact .inr (.inl ⟨hf, hle, (next_inj.1 h).symm⟩)
  | ok tel =>
    rw [hp] at h
    exact .inr (.inr ⟨hf, tel, rfl, (next_inj.1 h).symm⟩)

/-- Everything a `SERIALIZE` can answer. -/
theorem execSerialize_next {s t : State} (h : execSerialize s = .next t) :
    t = s.turnAway ∨ (s.fault = 0 ∧ ∃ tel, s.telegram = some tel ∧ t = s.finish (some (.bytes (noCrcExport tel)))) := by
  rcases unlessFaulted_next h with ⟨_, h⟩ | ⟨hf, h⟩
  · exact .inl h
  cases ht : s.telegram with
  | none =>
    rw [ht] at h
    exact .inl (next_inj.1 h).symm
  | some tel =>
    rw [ht] at h
    exact .inr ⟨hf, tel, rfl, returnValue_next h⟩

/-- The meaning of a pseudo-operation is that of the command it expands to (R85). -/
theorem execNopfeed_eq (s : State) : execNopfeed s = execFeed [] s := rfl

theorem execParseframe_eq (s : State) : execParseframe s = execParse s.rx.accumulatedBytes s := rfl

end Sys2Proof.Machine
end

