-- ==== Sys2Proof/Laws/Memory.lean ====
section
/-! SUPPORT. Every operation that writes a storage array keeps it within its bound (`spec/20_memory.md` R50, `00_scope.md` R10). -/

namespace Sys2Proof.Machine

theorem memory_wf_iff {s : State} : Memory.wf s = true ↔
    s.rx.targetFrameLength ≤ 289 ∧ s.rx.accumulatedBytes.length ≤ 289 ∧ s.rx.spilledBits.length < 6 ∧
      s.rx.spilledNibbles.length < 2 ∧ ∀ t ∈ s.telegram, t.payload.length ≤ 255 := by
  cases h : s.telegram <;> simp [Memory.wf, h, and_assoc]

theorem reset_memory_wf : Memory.wf State.reset = true := by decide

/-- An operation that leaves the receiver and the telegram as they were keeps the arrays. -/
theorem memory_wf_congr {s t : State} (hrx : t.rx = s.rx) (htel : t.telegram = s.telegram) :
    Memory.wf t = Memory.wf s := by
  unfold Memory.wf
  rw [hrx, htel]

/-- `ASSEMBLE` keeps the frame buffer. -/
theorem assemble_keeps_wf {s : State} (h : Memory.wf s = true) (bytes : List Byte) :
    Memory.wf (s.setReceiver (assembleStage bytes s.rx)) = true := by
  rw [memory_wf_iff] at *
  obtain ⟨ht, _, hb, hn, htel⟩ := h
  obtain ⟨_, hsb, hsn, htfl⟩ := assembleStage_frame bytes s.rx
  exact ⟨by simpa [htfl] using latchLength_le ht _, by simpa using assembleStage_length_le ht,
    by simpa [hsb] using hb, by simpa [hsn] using hn, htel⟩

/-- `RESTART` empties the arrays of the receiver. -/
theorem restart_keeps_wf {s : State} (h : Memory.wf s = true) : Memory.wf (s.setReceiver (restartStage s.rx)) = true := by
  rw [memory_wf_iff] at *
  exact ⟨by simp [Receiver.reset], by simp [Receiver.reset], by simp [Receiver.reset], by simp [Receiver.reset], h.2.2.2.2⟩

/-- `DECODE36` keeps the spill registers. -/
theorem spill_keeps_wf {s : State} (h : Memory.wf s = true) {sb bits : List Bool} {sn : List Codeword} {d : Decoded}
    (hd : decode36 sb sn bits = .ok d) : Memory.wf (s.setReceiver (spillStage d s.rx)) = true := by
  rw [memory_wf_iff] at *
  exact ⟨h.1, h.2.1, (decode36_carries_less hd).1, (decode36_carries_less hd).2, h.2.2.2.2⟩

/-- `PARSE` keeps the payload buffer. -/
theorem parse_keeps_wf {s : State} (h : Memory.wf s = true) {raw : List Byte} {tel : Telegram}
    (hp : parseRaw raw = .ok tel) : Memory.wf (s.setTelegram tel) = true := by
  rw [memory_wf_iff] at *
  refine ⟨h.1, h.2.1, h.2.2.1, h.2.2.2.1, ?_⟩
  simpa using parseRaw_payload_le hp

/-- `RESET` empties every array. -/
theorem clearAll_wf (s : State) : Memory.wf s.clearAll = true := by
  rw [memory_wf_iff]
  simp [Receiver.reset]

end Sys2Proof.Machine
end

