-- ==== Sys2Proof/Laws/PerInstr.lean ====
section
/-! SUPPORT. Statements about every instruction, one lemma for each constructor. The family `Coding`: the transfer that an instruction
encodes to decodes to that instruction. -/

namespace Sys2Proof.Laws.Coding

/-- What the encoding of `i`, if it has one, decodes to. -/
def Statement (i : Instr) : Prop := ∀ t, encode i = some t → decode t = .ok i

/-- An instruction with no encoding. -/
theorem of_none {i : Instr} (h : encode i = none) : Statement i := fun t ht => by simp [h] at ht

/-- An instruction whose encoding is known. -/
theorem of_some {i : Instr} {t : Transfer} (h : encode i = some t) (hd : decode t = .ok i) : Statement i :=
  fun t' ht => by
    rw [h, Option.some.injEq] at ht
    rwa [← ht]

theorem feed : ∀ chunk, Statement (.feed chunk) := fun _ => of_some rfl rfl
theorem parse : ∀ raw, Statement (.parse raw) := fun _ => of_some rfl rfl
theorem serialize : Statement (.serialize) := of_some rfl rfl
theorem reset : Statement (.reset) := of_some rfl rfl
theorem nopfeed : Statement (.nopfeed) := of_some rfl rfl
theorem parseframe : Statement (.parseframe) := of_some rfl rfl
theorem restart : Statement (.restart) := of_none rfl
theorem sync : ∀ chunk, Statement (.sync chunk) := fun _ => of_none rfl
theorem sample : ∀ chunk, Statement (.sample chunk) := fun _ => of_none rfl
theorem retime : ∀ n, Statement (.retime n) := fun _ => of_none rfl
theorem decode36 : ∀ bits, Statement (.decode36 bits) := fun _ => of_none rfl
theorem assemble : ∀ bytes, Statement (.assemble bytes) := fun _ => of_none rfl
theorem pack6 : ∀ group, Statement (.pack6 group) := fun _ => of_none rfl
theorem translate : ∀ cw, Statement (.translate cw) := fun _ => of_none rfl
theorem pack8 : ∀ nibbles, Statement (.pack8 nibbles) := fun _ => of_none rfl
theorem genpreamble : ∀ bits osf, Statement (.genpreamble bits osf) := fun _ _ => of_none rfl
theorem xcorr : ∀ chunk tmpl, Statement (.xcorr chunk tmpl) := fun _ _ => of_none rfl
theorem lut36 : ∀ cw, Statement (.lut36 cw) := fun _ => of_none rfl
theorem calcsize : ∀ l, Statement (.calcsize l) := fun _ => of_none rfl
theorem parseFn : ∀ raw, Statement (.parseFn raw) := fun _ => of_none rfl
theorem strip : ∀ raw l, Statement (.strip raw l) := fun _ _ => of_none rfl
theorem serializeFn : ∀ t, Statement (.serializeFn t) := fun _ => of_none rfl
theorem cw0Illegal : Statement .cw0Illegal := of_some rfl rfl
theorem cw1Illegal : Statement .cw1Illegal := of_some rfl rfl
theorem cw2Illegal : Statement .cw2Illegal := of_some rfl rfl
theorem cw3Illegal : Statement .cw3Illegal := of_some rfl rfl
theorem cw4Illegal : Statement .cw4Illegal := of_some rfl rfl
theorem cw5Illegal : Statement .cw5Illegal := of_some rfl rfl
theorem cw6Illegal : Statement .cw6Illegal := of_some rfl rfl
theorem cw7Illegal : Statement .cw7Illegal := of_some rfl rfl
theorem cw8Illegal : Statement .cw8Illegal := of_some rfl rfl
theorem cw9Illegal : Statement .cw9Illegal := of_some rfl rfl
theorem cw10Illegal : Statement .cw10Illegal := of_some rfl rfl
theorem cw11 : Statement .cw11 := of_some rfl rfl
theorem cw12Illegal : Statement .cw12Illegal := of_some rfl rfl
theorem cw13 : Statement .cw13 := of_some rfl rfl
theorem cw14 : Statement .cw14 := of_some rfl rfl
theorem cw15Illegal : Statement .cw15Illegal := of_some rfl rfl
theorem cw16Illegal : Statement .cw16Illegal := of_some rfl rfl
theorem cw17Illegal : Statement .cw17Illegal := of_some rfl rfl
theorem cw18Illegal : Statement .cw18Illegal := of_some rfl rfl
theorem cw19 : Statement .cw19 := of_some rfl rfl
theorem cw20Illegal : Statement .cw20Illegal := of_some rfl rfl
theorem cw21Illegal : Statement .cw21Illegal := of_some rfl rfl
theorem cw22 : Statement .cw22 := of_some rfl rfl
theorem cw23Illegal : Statement .cw23Illegal := of_some rfl rfl
theorem cw24Illegal : Statement .cw24Illegal := of_some rfl rfl
theorem cw25 : Statement .cw25 := of_some rfl rfl
theorem cw26 : Statement .cw26 := of_some rfl rfl
theorem cw27Illegal : Statement .cw27Illegal := of_some rfl rfl
theorem cw28 : Statement .cw28 := of_some rfl rfl
theorem cw29Illegal : Statement .cw29Illegal := of_some rfl rfl
theorem cw30Illegal : Statement .cw30Illegal := of_some rfl rfl
theorem cw31Illegal : Statement .cw31Illegal := of_some rfl rfl
theorem cw32Illegal : Statement .cw32Illegal := of_some rfl rfl
theorem cw33Illegal : Statement .cw33Illegal := of_some rfl rfl
theorem cw34Illegal : Statement .cw34Illegal := of_some rfl rfl
theorem cw35 : Statement .cw35 := of_some rfl rfl
theorem cw36Illegal : Statement .cw36Illegal := of_some rfl rfl
theorem cw37 : Statement .cw37 := of_some rfl rfl
theorem cw38 : Statement .cw38 := of_some rfl rfl
theorem cw39Illegal : Statement .cw39Illegal := of_some rfl rfl
theorem cw40Illegal : Statement .cw40Illegal := of_some rfl rfl
theorem cw41 : Statement .cw41 := of_some rfl rfl
theorem cw42Illegal : Statement .cw42Illegal := of_some rfl rfl
theorem cw43Illegal : Statement .cw43Illegal := of_some rfl rfl
theorem cw44 : Statement .cw44 := of_some rfl rfl
theorem cw45Illegal : Statement .cw45Illegal := of_some rfl rfl
theorem cw46Illegal : Statement .cw46Illegal := of_some rfl rfl
theorem cw47Illegal : Statement .cw47Illegal := of_some rfl rfl
theorem cw48Illegal : Statement .cw48Illegal := of_some rfl rfl
theorem cw49 : Statement .cw49 := of_some rfl rfl
theorem cw50 : Statement .cw50 := of_some rfl rfl
theorem cw51Illegal : Statement .cw51Illegal := of_some rfl rfl
theorem cw52 : Statement .cw52 := of_some rfl rfl
theorem cw53Illegal : Statement .cw53Illegal := of_some rfl rfl
theorem cw54Illegal : Statement .cw54Illegal := of_some rfl rfl
theorem cw55Illegal : Statement .cw55Illegal := of_some rfl rfl
theorem cw56Illegal : Statement .cw56Illegal := of_some rfl rfl
theorem cw57Illegal : Statement .cw57Illegal := of_some rfl rfl
theorem cw58Illegal : Statement .cw58Illegal := of_some rfl rfl
theorem cw59Illegal : Statement .cw59Illegal := of_some rfl rfl
theorem cw60Illegal : Statement .cw60Illegal := of_some rfl rfl
theorem cw61Illegal : Statement .cw61Illegal := of_some rfl rfl
theorem cw62Illegal : Statement .cw62Illegal := of_some rfl rfl
theorem cw63Illegal : Statement .cw63Illegal := of_some rfl rfl

end Sys2Proof.Laws.Coding
end

