-- ==== Sys2Proof/Tests/Slice0.lean ====
section
/-! SUPPORT. The model's own tests. Expected values are from `spec/95_test_vectors.md` (the vector's name stands in each test's
comment) or worked out by hand from the rule named. Below them, one witness for the hypotheses of each statement that has some. -/

namespace Sys2Proof.Tests

open Sys2Proof.Machine

/-! ### Helpers -/

/-- The operation answers a next state, and it is as `p` says. -/
def nextIs (a : Answer) (p : State → Bool) : Bool :=
  match a with
  | .next t => p t
  | .fault _ => false
  | .refused _ => false

/-- The operation stops with this refusal. -/
def stopsWith (a : Answer) (r : Refusal) : Bool :=
  match a with
  | .next _ => false
  | .fault _ => false
  | .refused x => decide (x = r)

/-- The state an operation answers, for a witness that it answers one. -/
def after (a : Answer) : State :=
  match a with
  | .next t => t
  | .fault _ => State.reset
  | .refused _ => State.reset

theorem next_after {a : Answer} (h : nextIs a (fun _ => true) = true) : a = .next (after a) := by
  cases a with
  | next t => rfl
  | fault f => cases f
  | refused r => simp [nextIs] at h

/-- A small block: `OSF = 2` and a preamble of one symbol, so that the template is `[1, 1]`. -/
def small : Params where
  osf := 2
  preambleBits := [1]
  sampleWidth := none
  chunkMax := none
  rawMax := none

/-- The small block with every bound set: 4-bit samples, chunks of at most 8, raw frames of at most 289. -/
def bounded : Params where
  osf := 2
  preambleBits := [1]
  sampleWidth := some 4
  chunkMax := some 8
  rawMax := some 289

/-- A block whose template is `[1, 1, -1, -1]`. -/
def upDown : Params where
  osf := 2
  preambleBits := [1, -1]
  sampleWidth := none
  chunkMax := none
  rawMax := none

/-- A state with the given receiver registers, all else as at reset. -/
def withRx (p : Params) (rx : Receiver) : State :=
  { State.resetWith p with rx := rx }

/-- A receiver inside a frame of which nothing is decoded yet. -/
def inFrame (so : Int) : Receiver where
  samplingOffset := so
  targetFrameLength := 0
  frameComplete := false
  accumulatedBytes := []
  spilledBits := []
  spilledNibbles := []

/-- A receiver with spilled bits and a codeword held back. -/
def carrying (sb : List Bool) (sn : List Codeword) : Receiver :=
  { inFrame 0 with spilledBits := sb, spilledNibbles := sn }

/-- A receiver with a frame of two bytes complete (the state before `RESTART` in 95_test_vectors.md 2.4). -/
def completed : Receiver where
  samplingOffset := 0
  targetFrameLength := 2
  frameComplete := true
  accumulatedBytes := [0x00, 0x5A]
  spilledBits := [false, true]
  spilledNibbles := [22]

/-- A receiver with 14 of 15 bytes (the state before vectors A4 and A5). -/
def nearlyDone : Receiver where
  samplingOffset := 0
  targetFrameLength := 15
  frameComplete := false
  accumulatedBytes := [0x0B, 1, 1, 1, 1, 1, 1, 1, 1, 1, 1, 1, 1, 1]
  spilledBits := []
  spilledNibbles := []

/-- A state held by `TruncatedFrame` (after K4). -/
def held : State :=
  { State.reset with fault := 2, faultInfo := 12 }

/-- The 30 bytes of S7. -/
def rawS7 : List Byte :=
  [0x19, 0x44, 0x34, 0x12, 0x01, 0x02, 0x03, 0x04, 0x05, 0x06, 0xAA, 0xBB, 0x7A] ++
  [0x10, 0x11, 0x12, 0x13, 0x14, 0x15, 0x16, 0x17, 0x18, 0x19, 0x1A, 0x1B, 0x1C, 0x1D, 0x1E, 0xCC, 0xDD]

/-- The telegram of S7. -/
def telegramS7 : Telegram where
  lengthField := 0x19
  control := 0x44
  manufacturerId := 0x1234
  address := ⟨1, 2, 3, 4, 5, 6⟩
  headerCrc := 0xBBAA
  controlInfo := 0x7A
  payload := [0x10, 0x11, 0x12, 0x13, 0x14, 0x15, 0x16, 0x17, 0x18, 0x19, 0x1A, 0x1B, 0x1C, 0x1D, 0x1E]

/-- A state that holds the telegram of S7. -/
def parsedS7 : State :=
  { State.reset with telegram := some telegramS7 }

/-- Samples from a sign string (R84). -/
def signs (text : List Char) : List Sample :=
  text.map fun ch => if ch = '+' then 1 else if ch = '-' then -1 else 0

/-- Bits from 0 and 1. -/
def bitsOf (digits : List Nat) : List Bool :=
  digits.map (· == 1)

/-- The twelve bits of one byte of valid code: `010110 010110` is 00 (D5). -/
def zeroByte : List Bool :=
  bitsOf [0, 1, 0, 1, 1, 0, 0, 1, 0, 1, 1, 0]

/-! ### Well-formedness: each check refuses an ill-formed term -/

theorem test_wellformed_sync_empty : (Instr.sync []).wellFormed = false := by decide
theorem test_wellformed_sample_empty : (Instr.sample []).wellFormed = false := by decide
theorem test_wellformed_retime_zero : (Instr.retime 0).wellFormed = false := by decide
theorem test_wellformed_pack6_five : (Instr.pack6 [true, true, true, true, true]).wellFormed = false := by decide
theorem test_wellformed_pack8_odd : (Instr.pack8 [1, 2, 3]).wellFormed = false := by decide
theorem test_wellformed_genpreamble_zero : (Instr.genpreamble [1] 0).wellFormed = false := by decide
theorem test_wellformed_xcorr_empty :
    (Instr.xcorr [] [1]).wellFormed = false ∧ (Instr.xcorr [1] []).wellFormed = false := by decide
theorem test_wellformed_strip_twelve : (Instr.strip (List.replicate 12 0) 0x19).wellFormed = false := by decide
theorem test_wellformed_serialize_256 :
    (Instr.serializeFn { telegramS7 with payload := List.replicate 256 0 }).wellFormed = false := by
  show decide ((List.replicate 256 (0 : Byte)).length ≤ 255) = false
  rw [List.length_replicate]
  rfl
theorem test_wellformed_accepts :
    (Instr.sync [0]).wellFormed = true ∧ (Instr.retime 1).wellFormed = true ∧ (Instr.pack8 []).wellFormed = true ∧
      (Instr.strip (List.replicate 13 0) 0).wellFormed = true := by decide

/-- An ill-formed stage stops by name. -/
theorem test_ill_formed_stops : stopsWith (exec (.pack8 [1, 2, 3]) State.reset) .operandOutsideDomain = true := by decide

/-! ### Decoding: words written out from the spec's encodings -/

/-- R83: `00` FEED with its chunk. -/
theorem test_decode_feed : decode (.command 0b00 (.chunk [1, -1])) = .ok (.feed [1, -1]) := by decide
/-- R83: `01` PARSE with its bytes. -/
theorem test_decode_parse : decode (.command 0b01 (.raw [0x0A])) = .ok (.parse [0x0A]) := by decide
/-- R83: `10` SERIALIZE, `11` RESET. -/
theorem test_decode_bare : decode (.command 0b10 .none) = .ok .serialize ∧ decode (.command 0b11 .none) = .ok .reset := by
  decide
/-- R83: an operand of the wrong kind is no instruction. -/
theorem test_decode_wrong_operand :
    decode (.command 0b00 .none) = .error (.operandOfWrongKind 0) ∧
      decode (.command 0b10 (.raw [])) = .error (.operandOfWrongKind 2) := by decide
/-- R85. -/
theorem test_decode_pseudo : decode (.pseudo .nopfeed) = .ok .nopfeed ∧ decode (.pseudo .parseframe) = .ok .parseframe := by
  decide
/-- R85: what the two stand for. -/
theorem test_expand_pseudo :
    expandPseudo [7] .nopfeed = .feed [] ∧ expandPseudo [7] .parseframe = .parse [7] ∧ expandPseudo [7] .reset = .reset := by
  decide
/-- R75: the sixteen valid words, bit by bit, in nibble order (D15), first eight. -/
theorem test_decode_valid_low :
    [0b010110, 0b001101, 0b001110, 0b001011, 0b011100, 0b011001, 0b011010, 0b010011].map (fun w => decode (.lineWord w)) =
      [.ok .cw22, .ok .cw13, .ok .cw14, .ok .cw11, .ok .cw28, .ok .cw25, .ok .cw26, .ok .cw19] := by decide
/-- R75: last eight. -/
theorem test_decode_valid_high :
    [0b101100, 0b100101, 0b100110, 0b100011, 0b110100, 0b110001, 0b110010, 0b101001].map (fun w => decode (.lineWord w)) =
      [.ok .cw44, .ok .cw37, .ok .cw38, .ok .cw35, .ok .cw52, .ok .cw49, .ok .cw50, .ok .cw41] := by decide
/-- R81: the illegal words, bit by bit, two rows of the table at a time. -/
theorem test_decode_illegal_0 :
    [0b000000, 0b000001, 0b000010, 0b000011, 0b000100, 0b000101, 0b000110, 0b000111, 0b001000, 0b001001, 0b001010,
      0b001100, 0b001111].map (fun w => decode (.lineWord w)) =
      [.ok .cw0Illegal, .ok .cw1Illegal, .ok .cw2Illegal, .ok .cw3Illegal, .ok .cw4Illegal, .ok .cw5Illegal,
        .ok .cw6Illegal, .ok .cw7Illegal, .ok .cw8Illegal, .ok .cw9Illegal, .ok .cw10Illegal, .ok .cw12Illegal,
        .ok .cw15Illegal] := by decide
theorem test_decode_illegal_2 :
    [0b010000, 0b010001, 0b010010, 0b010100, 0b010101, 0b010111, 0b011000, 0b011011, 0b011101, 0b011110,
      0b011111].map (fun w => decode (.lineWord w)) =
      [.ok .cw16Illegal, .ok .cw17Illegal, .ok .cw18Illegal, .ok .cw20Illegal, .ok .cw21Illegal, .ok .cw23Illegal,
        .ok .cw24Illegal, .ok .cw27Illegal, .ok .cw29Illegal, .ok .cw30Illegal, .ok .cw31Illegal] := by decide
theorem test_decode_illegal_4 :
    [0b100000, 0b100001, 0b100010, 0b100100, 0b100111, 0b101000, 0b101010, 0b101011, 0b101101, 0b101110,
      0b101111].map (fun w => decode (.lineWord w)) =
      [.ok .cw32Illegal, .ok .cw33Illegal, .ok .cw34Illegal, .ok .cw36Illegal, .ok .cw39Illegal, .ok .cw40Illegal,
        .ok .cw42Illegal, .ok .cw43Illegal, .ok .cw45Illegal, .ok .cw46Illegal, .ok .cw47Illegal] := by decide
theorem test_decode_illegal_6 :
    [0b110000, 0b110011, 0b110101, 0b110110, 0b110111, 0b111000, 0b111001, 0b111010, 0b111011, 0b111100, 0b111101,
      0b111110, 0b111111].map (fun w => decode (.lineWord w)) =
      [.ok .cw48Illegal, .ok .cw51Illegal, .ok .cw53Illegal, .ok .cw54Illegal, .ok .cw55Illegal, .ok .cw56Illegal,
        .ok .cw57Illegal, .ok .cw58Illegal, .ok .cw59Illegal, .ok .cw60Illegal, .ok .cw61Illegal, .ok .cw62Illegal,
        .ok .cw63Illegal] := by decide
/-- R83: stages, steps and functions have no code. -/
theorem test_encode_no_code : encode .restart = none ∧ encode (.lut36 22) = none ∧ encode (.calcsize 9) = none := by decide
/-- The words of the opcode table by their width. -/
theorem test_table_words :
    decodeTableWord 2 3 = some .reset ∧ decodeTableWord 6 3 = some .cw3Illegal ∧ decodeTableWord 8 3 = some .reset ∧
      decodeTableWord 8 41 = some .cw41 ∧ decodeTableWord 8 64 = none ∧ decodeTableWord 2 4 = none ∧
      decodeTableWord 16 0 = none := by decide
/-- What is placed for the next step is what the next step runs. -/
theorem test_fetch_runs : nextIs (step (State.reset.withFetchWord 6 0b111111)) (fun t => t.fault == 1 && t.faultInfo == 63) =
    true := by decide
/-- A transfer that is no instruction stops the step by name. -/
theorem test_step_undecodable :
    stopsWith (step (presentNext State.reset (.command 3 (.raw [])))) (.undecodable (.operandOfWrongKind 3)) = true := by decide
/-- R171: with nothing presented the block holds its registers. -/
theorem test_step_idle : nextIs (step State.reset) (fun t => t == State.reset) = true := by decide

/-! ### Listing lines (R84, R85) -/

theorem test_line_signs :
    readLine ['F', 'E', 'E', 'D', ' ', '"', '0', '+', '-', '"', ' ', ';', ' ', '3'] =
      some (.command 0 (.chunk [0, 1, -1])) := by decide
theorem test_line_integers :
    readLine ['F', 'E', 'E', 'D', ' ', '[', '1', '2', ',', ' ', '-', '3', ']'] = some (.command 0 (.chunk [12, -3])) := by
  decide
theorem test_line_parse :
    readLine ['P', 'A', 'R', 'S', 'E', ' ', '0', 'A', ' ', 'f', '4'] = some (.command 1 (.raw [0x0A, 0xF4])) := by decide
theorem test_listing :
    readListing [[';'], ['R', 'E', 'S', 'E', 'T'], [], ['N', 'O', 'P', 'F', 'E', 'E', 'D']] =
      some [.command 3 .none, .pseudo .nopfeed] := by decide
theorem test_line_unknown : readLine ['H', 'A', 'L', 'T'] = none := by decide

/-! ### State and reset -/

/-- K11: `RESET` in the middle of a frame. -/
theorem test_reset_midframe :
    nextIs (exec .reset (withRx small { inFrame 0 with targetFrameLength := 14, accumulatedBytes := [0x0A, 0x44, 0x93] }))
      (fun t => t.rx == Receiver.reset && t.outcome == some .done) = true := by decide
/-- K7: `RESET` leaves a fault. -/
theorem test_reset_fault :
    nextIs (exec .reset held) (fun t => t.fault == 0 && t.faultInfo == 0 && t.rx == Receiver.reset) = true := by decide
/-- R157: the status ports read the registers. -/
theorem test_status_ports :
    (statusPorts held).fault = 2 ∧ (statusPorts held).telegramValid = false ∧ (statusPorts parsedS7).telegramValid = true ∧
      currentFrame (withRx small completed) = [0x00, 0x5A] := by decide

/-! ### Synchronizer -/

/-- S1. -/
theorem test_genpreamble_s1 :
    nextIs (exec (.genpreamble [-1, 1] 4) State.reset) (fun t => t.result == some (.integers [-1, -1, -1, -1, 1, 1, 1, 1])) =
      true := by decide
/-- G4: the template of CFG-T. -/
theorem test_template_cfgT :
    template Params.cfgT = signs ['+', '+', '-', '-', '+', '+', '-', '-', '-', '-', '-', '-', '-', '-', '-', '-', '+', '+', '+', '+'] := by
  decide
/-- X1. -/
theorem test_xcorr_x1 :
    nextIs (exec (.xcorr [1, 2, 3] [1, -1]) State.reset) (fun t => t.result == some (.integers [-1, -1, -1, 3])) = true := by
  decide
/-- X3: an asymmetric template longer than the chunk. -/
theorem test_xcorr_x3 :
    nextIs (exec (.xcorr [2, 1] [1, 2, 3]) State.reset) (fun t => t.result == some (.integers [6, 7, 4, 1])) = true := by
  decide
/-- S2, with the source's own template. -/
theorem test_sync_offset_s2 : syncOffset [1, 0, 0, 0, 0] [0, 0, 0, 0, 1, 0, 0, 0, 0] 2 = 5 := by decide
/-- Y7 and Y8: an inverted preamble locks, and a template at `p = 2`, amplitude 3. -/
theorem test_sync_y7 :
    nextIs (exec (.sync [-1, -1, 1, 1]) (State.resetWith upDown)) (fun t => t.rx.samplingOffset == 4) = true := by decide
theorem test_sync_y8 :
    nextIs (exec (.sync [0, 0, 3, 3, -3, -3, 3]) (State.resetWith upDown)) (fun t => t.rx.samplingOffset == 6) = true := by
  decide

/-! ### Timing recovery -/

/-- S3, scaled by 20. -/
theorem test_sample_s3 :
    nextIs (exec (.sample [-5, -10, -14, 30, 10, 5, 0, -6]) (withRx small (inFrame 1)))
      (fun t => t.result == some (.bits [false, true, true, false]) && t.rx.samplingOffset == 1) = true := by decide
/-- T5: value 0 is bit 0. -/
theorem test_sample_t5 :
    nextIs (exec (.sample [5, -5, 0, 7, 7, -7, 1, 1, 1]) (withRx { small with osf := 4 } (inFrame 2)))
      (fun t => t.result == some (.bits [false, true])) = true := by decide
/-- S4, first case, and R8: `s > n`. -/
theorem test_retime_s4 :
    nextIs (exec (.retime 8) (withRx small (inFrame 2))) (fun t => t.rx.samplingOffset == 0) = true := by decide
theorem test_retime_r8 :
    nextIs (exec (.retime 4) (withRx small (inFrame 5))) (fun t => t.rx.samplingOffset == 1) = true := by decide
/-- R10 to R14: the rows with other factors. -/
theorem test_retime_offsets :
    retimeOffset 5 9 2 = 0 ∧ retimeOffset 10 3 4 = 1 ∧ retimeOffset 10 0 4 = 2 ∧ retimeOffset 10 13 4 = 3 ∧
      retimeOffset 3 2 8 = 7 := by decide

/-! ### Line decoder -/

/-- S5. -/
theorem test_decode36_s5 :
    nextIs (exec (.decode36 (bitsOf [1, 0, 0, 0, 1, 1, 0, 1, 1, 1, 0, 0, 1, 1, 1, 1, 1, 1, 1, 1])) (withRx small (inFrame 0)))
      (fun t => t.result == some (.bytes [0xB4]) && t.rx.spilledBits == [true, true] && t.rx.spilledNibbles == [63]) = true := by
  decide
/-- D13: the first of two illegal codewords is reported, and the spill registers stay. -/
theorem test_decode36_d13 :
    nextIs (exec (.decode36 (bitsOf [0, 1, 0, 1, 1, 0, 0, 0, 0, 0, 0, 0, 0, 1, 0, 1, 1, 0, 1, 1, 1, 0, 0, 0]))
        (withRx small (carrying [] [])))
      (fun t => t.fault == 1 && t.faultInfo == 0 && t.rx == carrying [] []) = true := by decide
/-- `100110` is 38 (R75). -/
theorem test_pack6_38 :
    nextIs (exec (.pack6 (bitsOf [1, 0, 0, 1, 1, 0])) State.reset) (fun t => t.result == some (.codeword 38)) = true := by decide
/-- The pair (35, 28) of S5 is 0xB4. -/
theorem test_pack8_b4 :
    nextIs (exec (.pack8 [0xB, 0x4, 0x0, 0xF]) State.reset) (fun t => t.result == some (.bytes [0xB4, 0x0F])) = true := by decide
/-- R75 and R81: 25 is nibble 5; D14: 21 is illegal although it has three 1 bits. -/
theorem test_translate_25 : nextIs (exec (.translate 25) State.reset) (fun t => t.result == some (.nibble 5)) = true := by decide
theorem test_translate_21 :
    nextIs (exec (.translate 21) State.reset) (fun t => t.fault == 1 && t.faultInfo == 21 && t.outcome == some .fault) = true := by
  decide
theorem test_lut36 :
    nextIs (exec (.lut36 50) State.reset) (fun t => t.result == some (.lutEntry (some 14))) = true ∧
      nextIs (exec (.lut36 42) State.reset) (fun t => t.result == some (.lutEntry none) && t.fault == 0) = true := by decide
/-- R75: the sixteen rows translate to the nibbles 0 to 15 in order. -/
theorem test_rows_valid :
    ([Instr.cw22, .cw13, .cw14, .cw11, .cw28, .cw25, .cw26, .cw19, .cw44, .cw37, .cw38, .cw35, .cw52, .cw49, .cw50, .cw41].map
      fun i => (after (exec i State.reset)).result) =
      [0, 1, 2, 3, 4, 5, 6, 7, 8, 9, 10, 11, 12, 13, 14, 15].map fun n => some (.nibble n) := by decide
/-- R81: illegal rows raise with themselves. -/
theorem test_rows_illegal :
    ([Instr.cw0Illegal, .cw7Illegal, .cw21Illegal, .cw42Illegal, .cw48Illegal, .cw63Illegal].map
      fun i => (after (exec i State.reset)).faultInfo) = [0, 7, 21, 42, 48, 63] := by decide

/-! ### Frame assembler -/

/-- The table of `CALCSIZE` values. -/
theorem test_calcsize :
    ([0, 1, 7, 8, 9, 10, 11, 24, 25, 26, 40, 41, 42, 57, 58, 249, 250, 255].map calcSize) =
      [2, 3, 9, 10, 11, 14, 15, 28, 29, 32, 46, 47, 50, 65, 68, 281, 284, 289] := by decide
theorem test_calcsize_result :
    nextIs (exec (.calcsize 57) State.reset) (fun t => t.result == some (.size 65)) = true := by decide
/-- A3 and A5. -/
theorem test_assemble_a3 :
    nextIs (exec (.assemble [0x00, 0x5A, 0x77, 0x88]) (withRx small (inFrame 0)))
      (fun t => t.rx.accumulatedBytes == [0x00, 0x5A] && t.rx.targetFrameLength == 2 && t.rx.frameComplete) = true := by decide
theorem test_assemble_a5 :
    nextIs (exec (.assemble [0xEE, 0xFF, 0x11]) (withRx small nearlyDone))
      (fun t => t.rx.accumulatedBytes == nearlyDone.accumulatedBytes ++ [0xEE] && t.rx.frameComplete) = true := by decide
/-- The `RESTART` vector. -/
theorem test_restart :
    nextIs (exec .restart (withRx small completed)) (fun t => t.rx == Receiver.reset && t.fault == 0) = true := by decide

/-! ### Telegram parser -/

/-- S7 and Q3. -/
theorem test_parse_s7 : nextIs (exec (.parse rawS7) State.reset) (fun t => t.telegram == some telegramS7) = true := by decide
theorem test_parse_q3 :
    nextIs (exec (.parse (rawS7.take 12)) State.reset) (fun t => t.fault == 2 && t.faultInfo == 12 && t.telegram == none) =
      true := by decide
/-- Q4: the least input that is accepted, as a function. -/
theorem test_parseFn_q4 :
    nextIs (exec (.parseFn (rawS7.take 13)) State.reset)
      (fun t => t.result == some (.telegram { telegramS7 with payload := [] }) && t.telegram == none) = true := by decide
/-- Q5: the phantom block of L = 25. -/
theorem test_strip_q5 :
    nextIs (exec (.strip (rawS7 ++ [0xE0, 0xE1, 0xE2, 0xE3, 0xE4, 0xE5, 0xE6, 0xE7, 0xE8, 0xE9, 0xEA, 0xEB, 0xEC, 0xED, 0xEE,
          0xEF, 0xF0, 0xF1]) 0x19) State.reset)
      (fun t => t.result == some (.bytes ([0x7A] ++ telegramS7.payload ++ [0xE0, 0xE1, 0xE2, 0xE3, 0xE4, 0xE5, 0xE6, 0xE7,
          0xE8, 0xE9, 0xEA, 0xEB, 0xEC, 0xED, 0xEE, 0xEF]))) = true := by decide
/-- S7's 26 bytes, by the command and by the function. -/
theorem test_serialize_s7 :
    nextIs (exec .serialize parsedS7)
      (fun t => t.result == some (.bytes ([0x19, 0x44, 0x34, 0x12, 1, 2, 3, 4, 5, 6, 0x7A] ++ telegramS7.payload))) = true := by
  decide
theorem test_serializeFn_s7 :
    nextIs (exec (.serializeFn telegramS7) State.reset)
      (fun t => t.result == some (.bytes ([0x19, 0x44, 0x34, 0x12, 1, 2, 3, 4, 5, 6, 0x7A] ++ telegramS7.payload))) = true := by
  decide

/-! ### Commands -/

/-- K2: the empty chunk leaves a complete frame. -/
theorem test_nopfeed_k2 :
    nextIs (exec .nopfeed (withRx small completed)) (fun t => t.rx == completed && t.outcome == some .done) = true := by decide
/-- K3 and K5: refusals. -/
theorem test_serialize_k3 :
    nextIs (exec .serialize State.reset) (fun t => t.outcome == some .refused && t.result == none) = true := by decide
theorem test_parse_k5 :
    nextIs (exec (.parse rawS7) held) (fun t => t.outcome == some .refused && t.fault == 2 && t.telegram == none) = true := by
  decide
/-- K9: a chunk longer than `CHUNK_MAX` is refused; a chunk of exactly `CHUNK_MAX` is not. -/
theorem test_feed_k9 :
    nextIs (exec (.feed (List.replicate 9 1)) (State.resetWith bounded)) (fun t => t.outcome == some .refused) = true ∧
      nextIs (exec (.feed (List.replicate 8 1)) (State.resetWith bounded)) (fun t => t.outcome == some .done) = true := by decide
/-- R73, U15: 4-bit samples reach from -8 to 7. -/
theorem test_feed_sample_width :
    nextIs (exec (.feed [-8, 7]) (State.resetWith bounded)) (fun t => t.outcome == some .done) = true ∧
      stopsWith (exec (.feed [8]) (State.resetWith bounded)) .sampleOutsideWidth = true := by decide
/-- P5 step 2: one sample, no bit, a new offset. -/
theorem test_feed_p5_step2 :
    nextIs (exec (.feed [3]) (withRx { small with osf := 4 } { inFrame 2 with spilledBits := [false, true, false, true] }))
      (fun t => t.rx == { inFrame 1 with spilledBits := [false, true, false, true] }) = true := by decide
/-- P3 step 5: the held-back 63 is translated first and nothing is committed. -/
theorem test_feed_p3_step5 :
    nextIs (exec (.feed (signs ['-', '-', '+', '+', '-', '-', '+', '+', '+', '+', '-', '-']))
        (withRx Params.cfgT { carrying [] [63] with targetFrameLength := 2, accumulatedBytes := [0] }))
      (fun t => t.fault == 1 && t.faultInfo == 63 && t.rx.accumulatedBytes == [0] && t.rx.spilledNibbles == [63]) = true := by
  decide
/-- R85: `PARSEFRAME` parses what is in the frame buffer (12 bytes or fewer here: `TruncatedFrame`). -/
theorem test_parseframe :
    nextIs (exec .parseframe (withRx small completed)) (fun t => t.fault == 2 && t.faultInfo == 2) = true ∧
      nextIs (exec .parseframe (withRx small { completed with accumulatedBytes := rawS7 }))
        (fun t => t.telegram == some telegramS7 && t.rx.accumulatedBytes == rawS7) = true := by decide
/-- U14: parameters that no block has. -/
theorem test_feed_no_instance :
    stopsWith (exec (.feed [1]) (State.resetWith { small with osf := 3 })) .noSuchInstance = true := by decide
/-- An offset that no run reaches stops the stages that would sample from it. -/
theorem test_sample_bad_offset :
    stopsWith (exec (.sample [1]) State.reset) .samplingOffsetIllegal = true ∧
      stopsWith (exec (.feed [1]) (withRx small (inFrame (-2)))) .samplingOffsetIllegal = true := by decide

/-! ### Witnesses: a state and operands that meet the hypotheses of each statement

`witness_<Statement>`, with one clause for each case of a statement that has several. A statement without hypotheses has none. -/

theorem witness_NewInstanceHoldsTheResetValues :
    ∃ s s' : State, s = State.reset ∧ ∃ cfg, cfg = bounded ∧ s' = State.resetWith cfg :=
  ⟨_, _, rfl, _, rfl, rfl⟩

theorem witness_ResetRestoresEveryRegister :
    held.fault ≠ 0 ∧ decode (.command 2 .none) = .ok .serialize ∧ (2 : CommandCode) ≠ 3 := by decide

theorem witness_DecodingAnEncodedInstructionGivesItBack :
    (Instr.feed [1, -1]).wellFormed = true ∧ encode (.feed [1, -1]) = some (.command 0 (.chunk [1, -1])) ∧
      Instr.cw63Illegal.wellFormed = true ∧ encode .cw63Illegal = some (.lineWord 63) := by decide

theorem witness_EveryTransferIsOneInstruction :
    decode (.lineWord 0) = .ok .cw0Illegal ∧ decode (.command 0 (.chunk [])) = .ok (.feed []) ∧
      decode (.command 3 .none) = .ok .reset := by decide

theorem witness_StepRunsTheDecodedInstruction :
    ({ State.reset with pending := [.command 0 (.chunk [1]), .command 3 .none] } : State).pending =
        .command 0 (.chunk [1]) :: [.command 3 .none] ∧
      decode (.command 0 (.chunk [1])) = .ok (.feed [1]) ∧
      ({ State.reset with pending := [.command 3 (.raw [])] } : State).pending = .command 3 (.raw []) :: [] ∧
      decode (.command 3 (.raw [])) = .error (.operandOfWrongKind 3) := by decide

theorem witness_SignStringLinesReadAsFeed :
    (∀ ch ∈ ['+', '-', '0'], ch = '+' ∨ ch = '-' ∨ ch = '0') ∧
      ∀ ch ∈ ([] : List Char), ch = '+' ∨ ch = '-' ∨ ch = '0' := by simp

theorem witness_GenpreambleRepeatsEachElement :
    (0 : Nat) < 1 ∧ 0 < (State.resetWith small).cfg.osf ∧ (State.resetWith small).cfg.preambleBits = [1] := by decide

theorem witness_XcorrReturnsTheFullCorrelation : ([5] : List Int) ≠ [] ∧ ([1, 1, -1, -1] : List Int) ≠ [] := by decide

theorem witness_SyncPointsBehindTheFirstPeak :
    (State.resetWith bounded).fault = 0 ∧ (State.resetWith bounded).cfg.Valid ∧
      ChunkOk (State.resetWith bounded).cfg [-8, 7] := by decide

theorem witness_SilentChunkSynchronisesAtHalfASymbol :
    State.reset.fault = 0 ∧ State.reset.cfg.Valid ∧ 0 < 1 ∧ sampleFits State.reset.cfg 0 = true := by decide

theorem witness_TemplateCopyCorrelatesToAmplitudeTimesLength : upDown.Valid ∧ Params.cfgT.Valid := by decide

/-- Offset 0, and an offset at the end of the chunk. -/
theorem witness_SampleTakesOneBitEachPeriod :
    (withRx small (inFrame 0)).fault = 0 ∧ (withRx small (inFrame 0)).cfg.Valid ∧
      ChunkOk (withRx small (inFrame 0)).cfg [1, 1] ∧ 0 ≤ (withRx small (inFrame 0)).rx.samplingOffset ∧
      0 ≤ (withRx small (inFrame 2)).rx.samplingOffset := by decide

theorem witness_RetimeContinuesTheGrid :
    (withRx small (inFrame 9)).fault = 0 ∧ (withRx small (inFrame 9)).cfg.Valid ∧ (0 : Nat) < 4 ∧
      0 ≤ (withRx small (inFrame 9)).rx.samplingOffset ∧ (0 : Nat) < 2 ∧ 2 % 2 = 0 := by decide

/-- The statement's own premises at its first and last row. -/
theorem witness_ValidCodewordsTranslateToTheirNibbles (h : Obligations.ValidCodewordsTranslateToTheirNibbles) :
    exec .cw22 State.reset = .next { State.reset with outcome := some .done, result := some (.nibble 0) } ∧
      exec .cw41 State.reset = .next { State.reset with outcome := some .done, result := some (.nibble 15) } :=
  ⟨h State.reset rfl (.cw22, 0) (by decide), h State.reset rfl (.cw41, 15) (by decide)⟩

/-- The statement's own premises at its first and last row. -/
theorem witness_IllegalCodewordsRaiseInvalidLineCode (h : Obligations.IllegalCodewordsRaiseInvalidLineCode) :
    exec .cw0Illegal State.reset =
        .next { State.reset with fault := 1, faultInfo := 0, outcome := some .fault, result := none } ∧
      exec .cw63Illegal State.reset =
        .next { State.reset with fault := 1, faultInfo := 63, outcome := some .fault, result := none } :=
  ⟨h State.reset rfl (.cw0Illegal, 0) (by decide), h State.reset rfl (.cw63Illegal, 63) (by decide)⟩

/-- A word of the table and one that is not. -/
theorem witness_LutHoldsTheThreeOfSixTable :
    State.reset.fault = 0 ∧ lut36 11 = some 3 ∧ lut36 12 = none := by decide

theorem witness_PackEightPutsTheEarlierNibbleHigh :
    ([] : List Nibble).length % 2 = 0 ∧ ([0xB, 0x4] : List Nibble).length % 2 = 0 := by decide

/-- Five bits spilled and a codeword held back, then an odd codeword (45 bits) left untranslated. -/
theorem witness_DecodeGroupsPairsAndHoldsBack :
    (withRx small (carrying [false, true, false, true, true] [22])).fault = 0 ∧
      ∀ cw ∈ Sys2Proof.Spec.translated (carrying [false, true, false, true, true] [22]) (false :: zeroByte ++ [true]),
        lut36 cw ≠ none := by decide

theorem witness_DecodeAccountsForEveryBit :
    ∃ t : State, exec (.decode36 zeroByte) (withRx small (inFrame 0)) = .next t ∧ t.result = some (.bytes [0]) :=
  ⟨_, next_after (by decide), by decide⟩

/-- D12: the older codewords are none, or one, and the illegal one is the oldest, or not. -/
theorem witness_DecodeRaisesOnTheOldestIllegalCodeword :
    Sys2Proof.Spec.translated (carrying [] [63]) (bitsOf [0, 1, 0, 1, 1, 0]) = [] ++ 63 :: [22] ∧ lut36 63 = none ∧
      Sys2Proof.Spec.translated (carrying [] [22]) (bitsOf [0, 0, 0, 0, 0, 0]) = [22] ++ 0 :: [] ∧
      (∀ x ∈ ([22] : List Codeword), lut36 x ≠ none) ∧ lut36 0 = none ∧ (withRx small (carrying [] [63])).fault = 0 := by decide

theorem witness_TwoValidCodewordsDecodeToOneByte :
    State.reset.fault = 0 ∧ State.reset.rx.spilledBits = [] ∧ State.reset.rx.spilledNibbles = [] ∧
      exec (.lut36 22) State.reset =
        .next { State.reset with outcome := some .done, result := some (.lutEntry (some 0)) } ∧
      exec (.lut36 41) State.reset =
        .next { State.reset with outcome := some .done, result := some (.lutEntry (some 15)) } :=
  ⟨rfl, rfl, rfl, rfl, rfl⟩

/-- D2 and D3: five bits, then the sixth. -/
theorem witness_DecodeDoesNotSeeCallBoundaries :
    ∃ t u : State, exec (.decode36 (bitsOf [1, 0, 1, 1, 0])) (withRx small (inFrame 0)) = .next t ∧
      t.result = some (.bytes []) ∧ exec (.decode36 [false]) t = .next u ∧ u.result = some (.bytes []) :=
  ⟨_, _, next_after (by decide), by decide, next_after (by decide), by decide⟩

theorem witness_InvertedStreamDecodesToTheComplement :
    ∃ t : State, (withRx small (inFrame 0)).rx.spilledBits = [] ∧ (withRx small (inFrame 0)).rx.spilledNibbles = [] ∧
      exec (.decode36 zeroByte) (withRx small (inFrame 0)) = .next t ∧ t.result = some (.bytes [0]) :=
  ⟨_, rfl, rfl, next_after (by decide), by decide⟩

theorem witness_CalcsizeFollowsTheFormula : (8 : Byte).toNat < (9 : Byte).toNat := by decide

/-- Both sides of L = 10, and the ends. -/
theorem witness_ReceiverStopsOneByteEarly :
    10 ≤ (10 : Byte).toNat ∧ 10 ≤ (255 : Byte).toNat ∧ (9 : Byte).toNat ≤ 9 ∧ (0 : Byte).toNat ≤ 9 := by decide

/-- A1 (nothing decoded), A2 (the length latched), A4 and A5 (the length reached exactly and passed). -/
theorem witness_AssembleLatchesAndCompletes :
    (withRx small (inFrame 0)).fault = 0 ∧ (inFrame 0).targetFrameLength = 0 ∧ (inFrame 0).accumulatedBytes ++ [] = [] ∧
      (0x0B : Byte) ∈ ((inFrame 0).accumulatedBytes ++ [0x0B]).head? ∧ nearlyDone.targetFrameLength ≠ 0 ∧
      15 = (nearlyDone.accumulatedBytes ++ [0xEE]).length ∧ 15 ≤ (nearlyDone.accumulatedBytes ++ [0xEE, 0xFF]).length ∧
      (nearlyDone.accumulatedBytes ++ []).length < 15 := by decide

theorem witness_FrameBufferIsAppendOnly :
    ∃ t : State, (nearlyDone.targetFrameLength ≠ 0 → nearlyDone.accumulatedBytes.length ≤ nearlyDone.targetFrameLength) ∧
      (nearlyDone.targetFrameLength = 0 → nearlyDone.accumulatedBytes = []) ∧
      exec (.assemble [0xEE, 0xFF]) (withRx small nearlyDone) = .next t :=
  ⟨_, by decide, by decide, next_after (by decide)⟩

theorem witness_RestartClearsTheReceiver : (withRx small completed).fault = 0 := by decide

theorem witness_StripTakesTheDataBytes : 13 ≤ (rawS7.take 13).length ∧ 13 ≤ rawS7.length := by decide

theorem witness_ParseFillsTheTelegramRegisters :
    ParseAccepted rawS7 (withRx bounded { completed with accumulatedBytes := rawS7 }) ∧ 13 ≤ rawS7.length ∧
      rawS7 = (withRx bounded { completed with accumulatedBytes := rawS7 }).rx.accumulatedBytes := by decide

/-- Both sides of 12 bytes, and none. -/
theorem witness_ShortInputRaisesTruncatedFrame :
    ParseAccepted (rawS7.take 12) (State.resetWith bounded) ∧ (rawS7.take 12).length ≤ 12 ∧
      ParseAccepted (rawS7.take 13) (State.resetWith bounded) ∧ 12 < (rawS7.take 13).length ∧
      ParseAccepted [] (State.resetWith bounded) ∧ ([] : List Byte).length ≤ 12 := by decide

theorem witness_SerializeEmitsTheExport : parsedS7.fault = 0 ∧ parsedS7.telegram = some telegramS7 := by decide

theorem witness_FunctionsAnswerAsTheirCommands :
    ParseAccepted (rawS7.take 13) (State.resetWith bounded) ∧ 13 ≤ (rawS7.take 13).length ∧
      ParseAccepted (rawS7.take 12) (State.resetWith bounded) ∧ (rawS7.take 12).length ≤ 12 ∧
      State.reset.fault = 0 ∧ telegramS7.payload.length ≤ 255 := by decide

/-- L = 9 (eleven bytes) and L = 10 (fourteen). -/
theorem witness_ReceivedFrameHasThePayloadItsLengthSays :
    ParseAccepted (9 :: List.replicate 10 0) State.reset ∧ ((9 : Byte) :: List.replicate 10 0).length = calcSize 9 ∧
      (9 : Byte).toNat ≤ 9 ∧ ParseAccepted (10 :: List.replicate 13 0) State.reset ∧
      ((10 : Byte) :: List.replicate 13 0).length = calcSize 10 ∧ 10 ≤ (10 : Byte).toNat := by decide

/-- A held block, one sample and one byte above the bounds, and no telegram. -/
theorem witness_HeldOrOverlongCommandIsRefused :
    held.fault ≠ 0 ∧ (State.resetWith bounded).cfg.chunkMax = some 8 ∧ 8 < (List.replicate 9 (0 : Sample)).length ∧
      (State.resetWith bounded).cfg.rawMax = some 289 ∧ 289 < (List.replicate 290 (0 : Byte)).length ∧
      (State.resetWith bounded).telegram = none := by
  refine ⟨by decide, rfl, by decide, rfl, ?_, rfl⟩
  rw [List.length_replicate]
  decide

theorem witness_EmptyFeedIsDoneAndWritesNothing : (withRx small completed).fault = 0 := by decide

/-- Before a frame, inside one, and after one; a chunk of valid code and a chunk of illegal code. -/
theorem witness_FeedIsItsStagesInOrder :
    FeedAccepted [1, 1] (State.resetWith bounded) ∧ FeedAccepted [1, 1] (withRx bounded (inFrame 0)) ∧
      FeedAccepted [1, 1] (withRx bounded completed) := by decide

theorem witness_FeedCompletesOnValidCode :
    FeedAccepted (symbolSamples 2 1 zeroByte) (withRx small (inFrame 0)) ∧ 0 ≤ (inFrame 0).samplingOffset ∧
      (inFrame 0).frameComplete = false ∧ zeroByte = sampleBits 2 0 (symbolSamples 2 1 zeroByte) ∧
      ∀ cw ∈ Sys2Proof.Spec.translated (inFrame 0) zeroByte, lut36 cw ≠ none := by decide

theorem witness_FeedLeavesTheOffsetInOnePeriod :
    ∃ t : State, ([1] : List Sample) ≠ [] ∧ exec (.feed [1]) (State.resetWith small) = .next t ∧ t.outcome = some .done :=
  ⟨_, by decide, next_after (by decide), by decide⟩

/-- A chunk of no illegal code, and one (the template, then two codewords 63) that raises. -/
theorem witness_EveryFrameStartsFromTheSameReceiver :
    (withRx small completed).rx.frameComplete = true ∧
      (∃ t : State, FeedAccepted [1, 1, -1] (withRx small completed) ∧
        exec (.feed [1, 1, -1]) (withRx small completed) = .next t ∧ t.fault = 0) ∧
      ∃ t : State, FeedAccepted (List.replicate 26 1) (withRx small completed) ∧
        exec (.feed (List.replicate 26 1)) (withRx small completed) = .next t ∧ t.fault ≠ 0 :=
  ⟨rfl, ⟨_, by decide, next_after (by decide), by decide⟩, _, by decide, next_after (by decide), by decide⟩

theorem witness_FeedIgnoresTheScaleOfTheSamples :
    (0 : Int) < 7 ∧ (∀ x ∈ ([1, -1, 0] : List Sample), sampleFits (State.resetWith bounded).cfg x = true) ∧
      ∀ x ∈ ([1, -1, 0] : List Sample), sampleFits (State.resetWith bounded).cfg (7 * x) = true := by decide

theorem witness_ChunkBoundariesNeedNoAlignment :
    ∃ t u : State, ([1] : List Sample) ≠ [] ∧ ([-1, 1] : List Sample) ≠ [] ∧
      (∀ m ∈ (withRx bounded (inFrame 1)).cfg.chunkMax, ([1] ++ [-1, 1] : List Sample).length ≤ m) ∧
      0 ≤ (withRx bounded (inFrame 1)).rx.samplingOffset ∧
      (withRx bounded (inFrame 1)).rx.samplingOffset < ((withRx bounded (inFrame 1)).cfg.osf : Int) ∧
      (withRx bounded (inFrame 1)).rx.frameComplete = false ∧
      exec (.feed [1]) (withRx bounded (inFrame 1)) = .next t ∧ t.outcome = some .done ∧ t.rx.frameComplete = false ∧
      exec (.feed [-1, 1]) t = .next u ∧ u.outcome = some .done :=
  ⟨_, _, by decide, by decide, by decide, by decide, by decide, by decide, next_after (by decide), by decide, by decide,
    next_after (by decide), by decide⟩

/-- The frame `00 5A` (L = 0, two bytes) behind the template of the small block, at amplitude 3. -/
theorem witness_TransmittedFrameIsReceived :
    (0 : Int) < 3 ∧ ([0x00, 0x5A] : List Byte).length = calcSize 0x00 ∧
      FeedAccepted ([] ++ (template small).map (3 * ·) ++ symbolSamples 2 3 (frameBits [0x00, 0x5A])) (State.resetWith small) ∧
      (State.resetWith small).rx = (State.resetWith (State.resetWith small).cfg).rx ∧
      peakIndex (xcorr ([] ++ (template small).map (3 * ·) ++ symbolSamples 2 3 (frameBits [0x00, 0x5A])) (template small)) =
        ([] : List Sample).length + (template small).length - 1 := by
  decide

theorem witness_NoResynchronisationInsideAFrame :
    ∃ t : State, 0 ≤ (withRx small (inFrame 0)).rx.samplingOffset ∧ (withRx small (inFrame 0)).rx.frameComplete = false ∧
      ({ (withRx small (inFrame 0)).cfg with preambleBits := [-1, 1] } : Params).Valid ∧
      exec (.feed [1, 1]) (withRx small (inFrame 0)) = .next t :=
  ⟨_, by decide, by decide, by decide, next_after (by decide)⟩

/-- A complete frame, and the host reads, parses or serialises. -/
theorem witness_CompletedFrameStaysUntilTheNextFeed :
    ∃ s t : State, s = presentNext (withRx small completed) (.command 0 (.chunk [])) ∧ step s = .next t ∧
      (∀ chunk, s.pending.head? = some (.command 0 (.chunk chunk)) → chunk = []) ∧
      s.pending.head? ≠ some (.command 3 .none) :=
  ⟨_, _, rfl, next_after (by decide), by intro chunk h; simpa [withRx] using h.symm, by decide⟩

theorem witness_PureOperationsChangeNoRegister :
    ∃ t u : State, exec (.sample [1]) (withRx small (inFrame 0)) = .next t ∧
      exec .serialize parsedS7 = .next u ∧ ∃ chunk, Instr.sample [1] = .sample chunk :=
  ⟨_, _, next_after (by decide), next_after (by decide), _, rfl⟩

theorem witness_TranslationsChangeAtMostTheFaultRegisters :
    ∃ t u : State, exec (.parseFn []) State.reset = .next t ∧ exec .cw63Illegal State.reset = .next u ∧
      ∃ w, encode .cw63Illegal = some (.lineWord w) :=
  ⟨_, _, next_after (by decide), next_after (by decide), _, rfl⟩

theorem witness_OnlyParseAndResetTouchTheTelegram :
    ∃ t : State, exec .nopfeed parsedS7 = .next t ∧ (∀ r, Instr.nopfeed ≠ .parse r) ∧ Instr.nopfeed ≠ .parseframe ∧
      Instr.nopfeed ≠ .reset :=
  ⟨_, next_after (by decide), by simp, by decide, by decide⟩

theorem witness_EachStageWritesItsOwnRegisters :
    ∃ t u v w : State, exec .serialize parsedS7 = .next t ∧ exec (.retime 1) (withRx small (inFrame 0)) = .next u ∧
      exec (.decode36 zeroByte) (withRx small (inFrame 0)) = .next v ∧
      exec (.assemble [0x0B]) (withRx small (inFrame 0)) = .next w :=
  ⟨_, _, _, _, next_after (by decide), next_after (by decide), next_after (by decide), next_after (by decide)⟩

theorem witness_OnlyResetLeavesAFault :
    ∃ t : State, held.fault ≠ 0 ∧ Instr.feed [1] ≠ .reset ∧ exec (.feed [1]) held = .next t :=
  ⟨_, by decide, by decide, next_after (by decide)⟩

theorem witness_InvariantHoldsAtReset : small.Valid ∧ bounded.Valid := by decide

/-- An instance in the middle of P3 step 5 meets the invariant and takes a step. -/
theorem witness_StepKeepsTheInvariant :
    ∃ s t : State, s = presentNext (withRx small { carrying [] [63] with targetFrameLength := 2, accumulatedBytes := [0] })
        (.command 0 (.chunk [1, 1])) ∧ Inv s ∧ step s = .next t :=
  ⟨_, _, rfl, ⟨by decide, ⟨by decide, by decide, by decide, by decide, by decide, by decide, fun _ => ⟨0, by decide, by decide⟩,
    by decide⟩, by decide, by
      intro tel htel
      cases htel⟩, next_after (by decide)⟩

theorem witness_EveryOperationKeepsTheArraysInBounds :
    ∃ t : State, Memory.wf (withRx small nearlyDone) = true ∧ exec (.assemble [0xEE]) (withRx small nearlyDone) = .next t :=
  ⟨_, by decide, next_after (by decide)⟩

/-- Two instances, each with a command of its own. -/
theorem witness_InstancesDoNotInterfere :
    ∃ q r : Platform, (0 : Nat) ≠ 1 ∧
      stepInstance 0 [presentNext State.reset (.command 0 (.chunk [])), presentNext (State.resetWith small) (.command 3 .none)] =
        .next q ∧ stepInstance 1 q = .next r :=
  ⟨_, _, by decide, rfl, rfl⟩

end Sys2Proof.Tests
end

section
/-! PROOFS. What the single stages, the pure functions and the commands leave in the registers and the storage arrays
(`spec/00_scope.md` R2, R10; `20_memory.md` R50), and the two statements about it. -/

namespace Sys2Proof.Machine

/-! ### Everything a stage run by itself can answer -/

theorem execRestart_next {s t : State} (h : execRestart s = .next t) :
    (s.fault ≠ 0 ∧ t = s.turnAway) ∨ (s.fault = 0 ∧ t = (s.setReceiver (restartStage s.rx)).finish none) := by
  rcases unlessFaulted_next h with h | ⟨hf, h⟩
  · exact .inl h
  · exact .inr ⟨hf, (next_inj.1 h).symm⟩

theorem execAssemble_next {bytes : List Byte} {s t : State} (h : execAssemble bytes s = .next t) :
    (s.fault ≠ 0 ∧ t = s.turnAway) ∨
    (s.fault = 0 ∧ t = (s.setReceiver (assembleStage bytes s.rx)).finish none) := by
  rcases unlessFaulted_next h with h | ⟨hf, h⟩
  · exact .inl h
  · exact .inr ⟨hf, (next_inj.1 h).symm⟩

theorem execSync_next {chunk : List Sample} {s t : State} (h : execSync chunk s = .next t) :
    (s.fault ≠ 0 ∧ t = s.turnAway) ∨
    (s.fault = 0 ∧ s.cfg.Valid ∧ (Instr.sync chunk).wellFormed = true ∧ (∀ x ∈ chunk, sampleFits s.cfg x = true) ∧
      t = (s.setReceiver (syncStage s.cfg chunk s.rx)).finish none) := by
  rcases unlessFaulted_next h with h | ⟨hf, h⟩
  · exact .inl h
  obtain ⟨hv, h⟩ := whenBuilt_next h
  obtain ⟨hd, h⟩ := whenInDomain_next h
  obtain ⟨hfit, h⟩ := whenSamplesFit_next h
  exact .inr ⟨hf, hv, hd, hfit, (next_inj.1 h).symm⟩

theorem execRetime_next {n : Nat} {s t : State} (h : execRetime n s = .next t) :
    (s.fault ≠ 0 ∧ t = s.turnAway) ∨
    (s.fault = 0 ∧ s.cfg.Valid ∧ (Instr.retime n).wellFormed = true ∧ 0 ≤ s.rx.samplingOffset ∧
      t = (s.setReceiver (retimeStage s.cfg n s.rx)).finish none) := by
  rcases unlessFaulted_next h with h | ⟨hf, h⟩
  · exact .inl h
  obtain ⟨hv, h⟩ := whenBuilt_next h
  obtain ⟨hd, h⟩ := whenInDomain_next h
  obtain ⟨hoff, h⟩ := whenOffset_next h
  exact .inr ⟨hf, hv, hd, hoff, (next_inj.1 h).symm⟩

theorem execSample_next {chunk : List Sample} {s t : State} (h : execSample chunk s = .next t) :
    (s.fault ≠ 0 ∧ t = s.turnAway) ∨
    (s.fault = 0 ∧ s.cfg.Valid ∧ (Instr.sample chunk).wellFormed = true ∧ (∀ x ∈ chunk, sampleFits s.cfg x = true) ∧
      0 ≤ s.rx.samplingOffset ∧
      t = s.finish (some (.bits (sampleBits s.cfg.osf s.rx.samplingOffset.toNat chunk)))) := by
  rcases unlessFaulted_next h with h | ⟨hf, h⟩
  · exact .inl h
  obtain ⟨hv, h⟩ := whenBuilt_next h
  obtain ⟨hd, h⟩ := whenInDomain_next h
  obtain ⟨hfit, h⟩ := whenSamplesFit_next h
  obtain ⟨hoff, h⟩ := whenOffset_next h
  exact .inr ⟨hf, hv, hd, hfit, hoff, returnValue_next h⟩

/-! ### The rows of the line code -/

/-- A row of the line code means `TRANSLATE` of its word (R124). -/
theorem exec_lineWord {i : Instr} {cw : Codeword} (hi : encode i = some (.lineWord cw)) (s : State) :
    exec i s = translateCodeword cw s := by
  cases i <;> cases hi <;> rfl

/-! ### Operations that change no register -/

/-- `t` has every register of `s`: at most the outcome and the result outputs differ. -/
def SameRegisters (s t : State) : Prop :=
  t = { s with outcome := t.outcome, result := t.result }

theorem SameRegisters.finish (s : State) (r : Option Result) : SameRegisters s (s.finish r) := rfl

theorem SameRegisters.turnAway (s : State) : SameRegisters s s.turnAway := rfl

theorem SameRegisters.of_returnValue {s t : State} {r : Result} (h : returnValue s r = .next t) : SameRegisters s t :=
  returnValue_next h ▸ .finish s _

/-- A pure function on operands in its domain (R2). -/
theorem SameRegisters.of_inDomain {i : Instr} {s t : State} {r : Result}
    (h : whenInDomain i (returnValue s r) = .next t) : SameRegisters s t :=
  .of_returnValue (whenInDomain_next h).2

/-- `SAMPLE` reads the offset and writes nothing (R110). -/
theorem execSample_sameRegisters {chunk : List Sample} {s t : State} (h : execSample chunk s = .next t) :
    SameRegisters s t := by
  rcases execSample_next h with ⟨_, rfl⟩ | ⟨_, _, _, _, _, rfl⟩
  · exact .turnAway s
  · exact .finish s _

theorem execSerialize_sameRegisters {s t : State} (h : execSerialize s = .next t) : SameRegisters s t := by
  rcases execSerialize_next h with rfl | ⟨_, _, _, rfl⟩
  · exact .turnAway s
  · exact .finish s _

/-- `FEED []` (R151 c) is held or done; its stages never run. -/
theorem execNopfeed_sameRegisters {s t : State} (h : execNopfeed s = .next t) : SameRegisters s t := by
  rcases feedCommand_next h with rfl | ⟨_, _, rfl⟩ | ⟨_, hne, _⟩
  · exact .turnAway s
  · exact .finish s _
  · exact absurd rfl hne

/-- Settles O49: each operation of the list returns a value or is turned away. -/
theorem pureOperationsChangeNoRegister : Obligations.PureOperationsChangeNoRegister := by
  intro i s t hi h
  rcases hi with ⟨c, rfl⟩ | ⟨g, rfl⟩ | ⟨n, rfl⟩ | ⟨b, o, rfl⟩ | ⟨c, m, rfl⟩ | ⟨w, rfl⟩ | ⟨l, rfl⟩ | ⟨r, l, rfl⟩ | ⟨x, rfl⟩ |
    rfl | rfl
  · exact execSample_sameRegisters h
  · exact SameRegisters.of_inDomain h
  · exact SameRegisters.of_inDomain h
  · exact SameRegisters.of_inDomain h
  · exact SameRegisters.of_inDomain h
  · exact SameRegisters.of_returnValue h
  · exact SameRegisters.of_returnValue h
  · exact SameRegisters.of_inDomain h
  · exact SameRegisters.of_inDomain h
  · exact execSerialize_sameRegisters h
  · exact execNopfeed_sameRegisters h

/-! ### Operations that keep the storage arrays -/

@[simp] theorem State.setReceiver_self (s : State) : s.setReceiver s.rx = s := rfl

@[simp] theorem memory_wf_finish (s : State) (r : Option Result) : Memory.wf (s.finish r) = Memory.wf s := rfl
@[simp] theorem memory_wf_turnAway (s : State) : Memory.wf s.turnAway = Memory.wf s := rfl
@[simp] theorem memory_wf_raise (s : State) (k : FaultKind) (info : Byte) :
    Memory.wf (s.raise k info) = Memory.wf s := rfl

/-- `SYNC` writes the offset, which is no array. -/
@[simp] theorem memory_wf_syncStage (s : State) (p : Params) (chunk : List Sample) (rx : Receiver) :
    Memory.wf (s.setReceiver (syncStage p chunk rx)) = Memory.wf (s.setReceiver rx) := rfl

/-- `RETIME` writes the offset, which is no array. -/
@[simp] theorem memory_wf_retimeStage (s : State) (p : Params) (n : Nat) (rx : Receiver) :
    Memory.wf (s.setReceiver (retimeStage p n rx)) = Memory.wf (s.setReceiver rx) := rfl

theorem SameRegisters.memory_wf {s t : State} (h : SameRegisters s t) : Memory.wf t = Memory.wf s := by
  rw [h]
  rfl

/-- The first two stages of `FEED` empty the arrays or leave them. -/
theorem alignStages_keeps_wf {s : State} (hwf : Memory.wf s = true) (chunk : List Sample) :
    Memory.wf (s.setReceiver (alignStages s.cfg chunk s.rx)) = true := by
  rcases alignStages_cases s.cfg chunk s.rx with ⟨_, _, ha⟩ | ⟨_, _, ha⟩ | ⟨_, ha⟩ <;> rw [ha]
  · simpa using hwf
  · simpa using hwf
  · simpa using restart_keeps_wf hwf

/-- All the stages of `FEED`, each on what the one before left (R151). -/
theorem feedStages_keeps_wf {s : State} (hwf : Memory.wf s = true) {chunk : List Sample} {rx : Receiver}
    (h : feedStages s.cfg chunk s.rx = .ok rx) : Memory.wf (s.setReceiver rx) = true := by
  obtain ⟨d, hd, rfl⟩ := receiveStages_ok.1 h
  have aligned := alignStages_keeps_wf hwf chunk
  have retimed : Memory.wf (s.setReceiver (retimeStage s.cfg chunk.length (alignStages s.cfg chunk s.rx))) = true := by
    rwa [memory_wf_retimeStage]
  have spilled := spill_keeps_wf retimed hd
  exact assemble_keeps_wf spilled d.1

theorem feedCommand_keeps_wf {chunk : List Sample} {s t : State} (hwf : Memory.wf s = true)
    (h : feedCommand chunk s = .next t) : Memory.wf t = true := by
  rcases feedCommand_next h with rfl | ⟨_, _, rfl⟩ | ⟨_, _, _, _, _, _, ⟨rx, hrx, rfl⟩ | ⟨_, _, rfl⟩⟩
  · simpa using hwf
  · simpa using hwf
  · simpa using feedStages_keeps_wf hwf hrx
  · simpa using hwf

theorem parseCommand_keeps_wf {raw : List Byte} {s t : State} (hwf : Memory.wf s = true)
    (h : parseCommand raw s = .next t) : Memory.wf t = true := by
  rcases parseCommand_next h with rfl | ⟨_, _, rfl⟩ | ⟨_, tel, hp, rfl⟩
  · simpa using hwf
  · simpa using hwf
  · simpa using parse_keeps_wf hwf hp

theorem execReset_keeps_wf {s t : State} (h : execReset s = .next t) : Memory.wf t = true :=
  next_inj.1 h ▸ clearAll_wf s

theorem execRestart_keeps_wf {s t : State} (hwf : Memory.wf s = true) (h : execRestart s = .next t) :
    Memory.wf t = true := by
  rcases execRestart_next h with ⟨_, rfl⟩ | ⟨_, rfl⟩
  · simpa using hwf
  · simpa using restart_keeps_wf hwf

theorem execSync_keeps_wf {chunk : List Sample} {s t : State} (hwf : Memory.wf s = true)
    (h : execSync chunk s = .next t) : Memory.wf t = true := by
  rcases execSync_next h with ⟨_, rfl⟩ | ⟨_, _, _, _, rfl⟩ <;> simpa using hwf

theorem execRetime_keeps_wf {n : Nat} {s t : State} (hwf : Memory.wf s = true)
    (h : execRetime n s = .next t) : Memory.wf t = true := by
  rcases execRetime_next h with ⟨_, rfl⟩ | ⟨_, _, _, _, rfl⟩ <;> simpa using hwf

theorem execDecode36_keeps_wf {bits : List Bool} {s t : State} (hwf : Memory.wf s = true)
    (h : execDecode36 bits s = .next t) : Memory.wf t = true := by
  rcases execDecode36_next h with ⟨_, rfl⟩ | ⟨_, d, hd, rfl⟩ | ⟨_, _, _, rfl⟩
  · simpa using hwf
  · simpa using spill_keeps_wf hwf hd
  · simpa using hwf

theorem execAssemble_keeps_wf {bytes : List Byte} {s t : State} (hwf : Memory.wf s = true)
    (h : execAssemble bytes s = .next t) : Memory.wf t = true := by
  rcases execAssemble_next h with ⟨_, rfl⟩ | ⟨_, rfl⟩
  · simpa using hwf
  · simpa using assemble_keeps_wf hwf bytes

theorem translateCodeword_keeps_wf {cw : Codeword} {s t : State} (hwf : Memory.wf s = true)
    (h : translateCodeword cw s = .next t) : Memory.wf t = true := by
  rcases translateCodeword_next h with ⟨_, rfl⟩ | ⟨_, _, _, rfl⟩ | ⟨_, _, rfl⟩ <;> simpa using hwf

theorem lineWord_keeps_wf {i : Instr} {cw : Codeword} (hi : encode i = some (.lineWord cw)) {s t : State}
    (hwf : Memory.wf s = true) (h : exec i s = .next t) : Memory.wf t = true :=
  translateCodeword_keeps_wf hwf ((exec_lineWord hi s).symm.trans h)

theorem execParseFn_keeps_wf {raw : List Byte} {s t : State} (hwf : Memory.wf s = true)
    (h : execParseFn raw s = .next t) : Memory.wf t = true := by
  rcases execParseFn_next h with ⟨_, rfl⟩ | ⟨_, _, rfl⟩ | ⟨_, _, _, rfl⟩ <;> simpa using hwf

/-- Settles O57: by the instruction, each by the lemma of its operation; the 64 rows of the line code are one case. -/
theorem everyOperationKeepsTheArraysInBounds : Obligations.EveryOperationKeepsTheArraysInBounds := by
  intro i s t hwf h
  have kept (hs : SameRegisters s t) : Memory.wf t = true := hs.memory_wf.trans hwf
  cases i with
  | feed chunk => exact feedCommand_keeps_wf hwf h
  | parse raw => exact parseCommand_keeps_wf hwf h
  | serialize => exact kept (execSerialize_sameRegisters h)
  | reset => exact execReset_keeps_wf h
  | nopfeed => exact feedCommand_keeps_wf hwf h
  | parseframe => exact parseCommand_keeps_wf hwf h
  | restart => exact execRestart_keeps_wf hwf h
  | sync chunk => exact execSync_keeps_wf hwf h
  | sample chunk => exact kept (execSample_sameRegisters h)
  | retime n => exact execRetime_keeps_wf hwf h
  | decode36 bits => exact execDecode36_keeps_wf hwf h
  | assemble bytes => exact execAssemble_keeps_wf hwf h
  | pack6 group => exact kept (.of_inDomain h)
  | translate cw => exact translateCodeword_keeps_wf hwf h
  | pack8 nibbles => exact kept (.of_inDomain h)
  | genpreamble bits osf => exact kept (.of_inDomain h)
  | xcorr chunk tmpl => exact kept (.of_inDomain h)
  | lut36 cw => exact kept (.of_returnValue h)
  | calcsize l => exact kept (.of_returnValue h)
  | parseFn raw => exact execParseFn_keeps_wf hwf h
  | strip raw l => exact kept (.of_inDomain h)
  | serializeFn tel => exact kept (.of_inDomain h)
  | _ => exact lineWord_keeps_wf rfl hwf h

end Sys2Proof.Machine
end

section
/-! PROOFS. The state at a command boundary (`spec/10_state.md`): its reset values (R37), its invariant (R27, R30, R33), which reset
establishes and every step keeps, and what no operation but `PARSE` and `RESET` writes (R34, R52). -/

namespace Sys2Proof.Machine

/-! ### The frame registers -/

/-- R27 (d) to (g) in one normal form: the length is the one that the first byte latches, the bytes do not exceed it, and
`frameComplete` says that they reach it. -/
def FrameOk (rx : Receiver) : Prop :=
  rx.targetFrameLength = latchLength 0 rx.accumulatedBytes ∧
  rx.accumulatedBytes.length ≤ rx.targetFrameLength ∧
  (rx.frameComplete = true ↔ rx.targetFrameLength ≠ 0 ∧ rx.accumulatedBytes.length = rx.targetFrameLength)

/-- `RESTART` leaves no frame. -/
theorem frameOk_reset : FrameOk Receiver.reset :=
  ⟨rfl, le_rfl, by simp [Receiver.reset]⟩

/-- `SYNC` writes no frame register. -/
@[simp] theorem frameOk_syncStage (p : Params) (chunk : List Sample) (rx : Receiver) :
    FrameOk (syncStage p chunk rx) ↔ FrameOk rx := .rfl

/-- `RETIME` writes no frame register. -/
@[simp] theorem frameOk_retimeStage (p : Params) (n : Nat) (rx : Receiver) :
    FrameOk (retimeStage p n rx) ↔ FrameOk rx := .rfl

/-- `DECODE36` writes no frame register. -/
@[simp] theorem frameOk_spillStage (d : Decoded) (rx : Receiver) : FrameOk (spillStage d rx) ↔ FrameOk rx := .rfl

/-- A length once latched is the one that the whole frame latches. -/
theorem latchLength_append (acc bytes : List Byte) :
    latchLength (latchLength 0 acc) (acc ++ bytes) = latchLength 0 (acc ++ bytes) := by
  cases acc with
  | nil => rfl
  | cons l rest =>
    have hne : calcSize l ≠ 0 := by have := calcSize_range l; omega
    rw [latchLength_first, latchLength_known hne, List.cons_append, latchLength_first]

/-- Cutting a frame behind its first byte does not change the length it latches. -/
theorem latchLength_take {n : Nat} (hn : n ≠ 0) (acc : List Byte) : latchLength 0 (acc.take n) = latchLength 0 acc := by
  obtain ⟨m, rfl⟩ := Nat.exists_eq_succ_of_ne_zero hn
  cases acc <;> rfl

/-- `ASSEMBLE` on a frame that is not complete: it cuts the frame at its length, or the frame stays short of it (R130). -/
theorem assembleStage_frameOk {rx : Receiver} (h : FrameOk rx) (hc : rx.frameComplete = false) (bytes : List Byte) :
    FrameOk (assembleStage bytes rx) := by
  obtain ⟨hlatch, -, -⟩ := h
  obtain ⟨-, -, -, htfl⟩ := assembleStage_frame bytes rx
  have hcases := assembleStage_cases bytes rx
  rw [hlatch, latchLength_append] at htfl hcases
  rcases hcases with ⟨hne, hle, hfc, hacc⟩ | ⟨hshort, hfc, hacc⟩
  · have hlen : (assembleStage bytes rx).accumulatedBytes.length = (assembleStage bytes rx).targetFrameLength := by
      rw [hacc, htfl, List.length_take, min_eq_left hle]
    have hknown : (assembleStage bytes rx).targetFrameLength ≠ 0 := htfl.trans_ne hne
    exact ⟨by rw [htfl, hacc, latchLength_take hne], hlen.le, fun _ => ⟨hknown, hlen⟩, fun _ => hfc⟩
  · have hzero : latchLength 0 (rx.accumulatedBytes ++ bytes) = 0 → (rx.accumulatedBytes ++ bytes).length = 0 :=
      fun h0 => List.length_eq_zero_iff.2 (latchLength_eq_zero.1 h0).2
    refine ⟨by rw [htfl, hacc], by rw [htfl, hacc]; omega, ?_⟩
    rw [hfc, hc, htfl, hacc]
    simp only [Bool.false_eq_true, false_iff]
    omega

/-- R27 with its clauses about the frame registers in their normal form. -/
theorem receiverOk_iff {p : Params} {rx : Receiver} :
    ReceiverOk p rx ↔
      (rx.samplingOffset = -1 ∨ 0 ≤ rx.samplingOffset ∧ rx.samplingOffset < p.osf) ∧
      rx.spilledBits.length < 6 ∧ rx.spilledNibbles.length < 2 ∧ FrameOk rx ∧
      (rx.samplingOffset = -1 → rx.accumulatedBytes = [] ∧ rx.spilledBits = [] ∧ rx.spilledNibbles = []) := by
  constructor
  · rintro ⟨ha, hb, hc, hd, he, hf, hg, hh⟩
    refine ⟨ha, hb, hc, ⟨?_, ?_, hf⟩, hh⟩
    · cases hacc : rx.accumulatedBytes with
      | nil => exact he.2 hacc
      | cons l rest =>
        obtain ⟨l', hl', hsize⟩ := hg fun h0 => by simp [he.1 h0] at hacc
        obtain rfl : l = l' := by simpa [hacc] using hl'
        exact hsize
    · by_cases h0 : rx.targetFrameLength = 0
      · simp [he.1 h0]
      · exact hd h0
  · rintro ⟨ha, hb, hc, ⟨hlatch, hle, hf⟩, hh⟩
    refine ⟨ha, hb, hc, fun _ => hle, ?_, hf, fun hne => ?_, hh⟩
    · rw [hlatch, latchLength_eq_zero]
      simp
    · cases hacc : rx.accumulatedBytes with
      | nil => exact absurd (by rw [hlatch, hacc, latchLength_nothing]) hne
      | cons l rest => exact ⟨l, rfl, by rw [hlatch, hacc, latchLength_first]⟩

/-! ### The receiver -/

theorem receiverOk_reset (p : Params) : ReceiverOk p Receiver.reset :=
  receiverOk_iff.2 ⟨.inl rfl, by decide, by decide, frameOk_reset, fun _ => ⟨rfl, rfl, rfl⟩⟩

/-- The first two stages of `FEED` leave the frame registers in order. The offset they leave may lie outside R27 (a). -/
theorem alignStages_frameOk {rx : Receiver} (h : FrameOk rx) (p : Params) (chunk : List Sample) :
    FrameOk (alignStages p chunk rx) := by
  rcases alignStages_cases p chunk rx with ⟨_, _, ha⟩ | ⟨_, _, ha⟩ | ⟨_, ha⟩ <;> rw [ha]
  · exact h
  · exact h
  · exact frameOk_reset

/-- All the stages of `FEED`: `RETIME` puts the offset back into R27 (a), `DECODE36` bounds the spill registers whatever they
held, `ASSEMBLE` keeps the frame in order. -/
theorem feedStages_keeps_receiverOk {p : Params} (hosf : 0 < p.osf) {chunk : List Sample} {rx rx' : Receiver}
    (h : ReceiverOk p rx) (hr : feedStages p chunk rx = .ok rx') : ReceiverOk p rx' := by
  obtain ⟨-, -, -, hframe, -⟩ := receiverOk_iff.1 h
  obtain ⟨d, hd, rfl⟩ := receiveStages_ok.1 hr
  obtain ⟨hoff, hbits, hnibbles, -⟩ :=
    assembleStage_frame d.1 (spillStage d (retimeStage p chunk.length (alignStages p chunk rx)))
  rw [spillStage_samplingOffset, retimeStage_samplingOffset] at hoff
  obtain ⟨hlow, hhigh⟩ := retimeOffset_range hosf chunk.length (alignStages p chunk rx).samplingOffset
  obtain ⟨hsb, hsn⟩ := decode36_carries_less hd
  have spilled : FrameOk (spillStage d (retimeStage p chunk.length (alignStages p chunk rx))) := by
    simpa using alignStages_frameOk hframe p chunk
  refine receiverOk_iff.2 ⟨.inr ?_, ?_, ?_, ?_, ?_⟩
  · rw [hoff]
    exact ⟨hlow, hhigh⟩
  · rwa [hbits]
  · rwa [hnibbles]
  · exact assembleStage_frameOk spilled (alignStages_not_complete p chunk rx) d.1
  · rw [hoff]
    omega

/-! ### The fault registers -/

/-- Entering `InvalidLineCode` with a codeword that is not in the table (R161). -/
theorem raise_invalidLineCode_faultOk {cw : Codeword} (h : lut36 cw = none) (s : State) :
    FaultOk (s.raise .invalidLineCode (zextCodeword cw)) := by
  simp [FaultOk, FaultKind.code, zextCodeword_lt, zextCodeword_setWidth, h]

/-- Entering `TruncatedFrame` with a count of at most 12 bytes (R162). -/
theorem raise_truncatedFrame_faultOk {n : Nat} (h : n ≤ 12) (s : State) :
    FaultOk (s.raise .truncatedFrame (BitVec.ofNat 8 n)) := by
  have hcount : n % 2 ^ 8 ≤ 12 := (Nat.mod_le n _).trans h
  simpa [FaultOk, FaultKind.code] using hcount

/-! ### The invariant, by what an operation writes -/

theorem inv_resetWith {cfg : Params} (h : cfg.Valid) : Inv (State.resetWith cfg) :=
  ⟨h, receiverOk_reset cfg, by simp [FaultOk, FaultKind.code], by simp [TelegramOk]⟩

theorem SameRegisters.inv {s t : State} (h : SameRegisters s t) (hinv : Inv s) : Inv t := by
  rw [h]
  exact hinv

theorem Inv.setReceiver {s : State} (hinv : Inv s) {rx : Receiver} (h : ReceiverOk s.cfg rx) : Inv (s.setReceiver rx) :=
  have ⟨hvalid, _, hfault, htelegram⟩ := hinv
  ⟨hvalid, h, hfault, htelegram⟩

theorem Inv.setTelegram {s : State} (hinv : Inv s) {tel : Telegram} (h : tel.payload.length ≤ 255) :
    Inv (s.setTelegram tel) :=
  have ⟨hvalid, hrx, hfault, _⟩ := hinv
  ⟨hvalid, hrx, hfault, by simpa [TelegramOk] using h⟩

theorem Inv.raise {s : State} (hinv : Inv s) {k : FaultKind} {info : Byte} (h : FaultOk (s.raise k info)) :
    Inv (s.raise k info) :=
  have ⟨hvalid, hrx, _, htelegram⟩ := hinv
  ⟨hvalid, hrx, h, htelegram⟩

theorem Inv.finish {s : State} (hinv : Inv s) (r : Option Result) : Inv (s.finish r) :=
  (SameRegisters.finish s r).inv hinv

theorem Inv.turnAway {s : State} (hinv : Inv s) : Inv s.turnAway :=
  (SameRegisters.turnAway s).inv hinv

/-! ### The invariant, by the command -/

theorem feedCommand_keeps_inv {chunk : List Sample} {s t : State} (hinv : Inv s) (h : feedCommand chunk s = .next t) :
    Inv t := by
  have ⟨⟨hosf, _⟩, hrx, _⟩ := hinv
  rcases feedCommand_next h with rfl | ⟨_, _, rfl⟩ | ⟨_, _, _, _, _, _, ⟨rx, hstages, rfl⟩ | ⟨cw, hcw, rfl⟩⟩
  · exact hinv.turnAway
  · exact hinv.finish none
  · exact (hinv.setReceiver (feedStages_keeps_receiverOk hosf hrx hstages)).finish none
  · exact hinv.raise (raise_invalidLineCode_faultOk (decode36_error_illegal (receiveStages_error.1 hcw)) s)

theorem parseCommand_keeps_inv {raw : List Byte} {s t : State} (hinv : Inv s) (h : parseCommand raw s = .next t) :
    Inv t := by
  rcases parseCommand_next h with rfl | ⟨_, hshort, rfl⟩ | ⟨_, tel, htel, rfl⟩
  · exact hinv.turnAway
  · exact hinv.raise (raise_truncatedFrame_faultOk hshort s)
  · exact (hinv.setTelegram (parseRaw_payload_le htel)).finish none

/-- `RESET` leaves what a newly built block with the same parameters holds (R154). -/
theorem execReset_keeps_inv {s t : State} (hinv : Inv s) (h : execReset s = .next t) : Inv t := by
  obtain rfl := next_inj.1 h
  have hclear : Inv s.clearAll := inv_resetWith hinv.1
  exact hclear.finish none

theorem translateCodeword_keeps_inv {cw : Codeword} {s t : State} (hinv : Inv s) (h : translateCodeword cw s = .next t) :
    Inv t := by
  rcases translateCodeword_next h with ⟨_, rfl⟩ | ⟨_, n, _, rfl⟩ | ⟨_, hcw, rfl⟩
  · exact hinv.turnAway
  · exact hinv.finish (some (.nibble n))
  · exact hinv.raise (raise_invalidLineCode_faultOk hcw s)

/-! ### What a transfer decodes to -/

theorem encode_lineInstr (cw : Codeword) : encode (lineInstr cw) = some (.lineWord cw) := by
  revert cw
  decide

/-- Everything the decoder answers: a command, a pseudo-operation or a row of the line code, and never a stage, a step or a
function (R83). -/
theorem decode_ok {x : Transfer} {i : Instr} (h : decode x = .ok i) :
    (∃ chunk, i = .feed chunk) ∨ (∃ raw, i = .parse raw) ∨ i = .serialize ∨ i = .reset ∨ i = .nopfeed ∨
      i = .parseframe ∨ ∃ cw, encode i = some (.lineWord cw) := by
  cases x with
  | command cmd operand =>
    simp only [decode, decodeCommand] at h
    split at h <;> cases h <;> simp
  | pseudo p => cases p <;> cases h <;> simp [decodePseudo]
  | lineWord cw =>
    cases h
    simp [encode_lineInstr]

/-- What a decoded transfer runs keeps the invariant. A stage run by itself need not. -/
theorem exec_decoded_keeps_inv {x : Transfer} {i : Instr} (hd : decode x = .ok i) {s t : State} (hinv : Inv s)
    (h : exec i s = .next t) : Inv t := by
  rcases decode_ok hd with ⟨chunk, rfl⟩ | ⟨raw, rfl⟩ | rfl | rfl | rfl | rfl | ⟨cw, hcw⟩
  · exact feedCommand_keeps_inv hinv h
  · exact parseCommand_keeps_inv hinv h
  · exact (execSerialize_sameRegisters h).inv hinv
  · exact execReset_keeps_inv hinv h
  · exact feedCommand_keeps_inv hinv h
  · exact parseCommand_keeps_inv hinv h
  · exact translateCodeword_keeps_inv hinv ((exec_lineWord hcw s).symm.trans h)

/-- Settles O56: an idle step changes nothing, and a transfer that decodes runs on a state with the same registers. -/
theorem stepKeepsTheInvariant : Obligations.StepKeepsTheInvariant := by
  intro s t hinv h
  rcases step_cases s with ⟨_, hidle⟩ | ⟨x, rest, _, ⟨i, hd, hrun⟩ | ⟨e, _, hstop⟩⟩
  · exact next_inj.1 (hidle.symm.trans h) ▸ hinv
  · have hwaiting : Inv { s with pending := rest } := hinv
    exact exec_decoded_keeps_inv hd hwaiting (hrun.symm.trans h)
  · cases hstop.symm.trans h

/-- Settles O55: the invariant holds of a newly built block with any parameters that R8 allows, those of CFG-T among them. -/
theorem invariantHoldsAtReset : Obligations.InvariantHoldsAtReset :=
  ⟨inv_resetWith (by decide), fun _ => inv_resetWith⟩

/-! ### Reset values -/

/-- Settles O1: the table of R37, read off the state a new block is built with. -/
theorem newInstanceHoldsTheResetValues : Obligations.NewInstanceHoldsTheResetValues := by
  rintro s (rfl | ⟨cfg, rfl⟩)
  · exact ⟨rfl, rfl, rfl, rfl, rfl, rfl, rfl, rfl, rfl, rfl⟩
  · exact ⟨rfl, rfl, rfl, rfl, rfl, rfl, rfl, rfl, rfl, rfl⟩

/-! ### The parameters, the command input and the telegram registers -/

/-- `t` has the parameters, the waiting transfers and the telegram registers of `s`: at most the receiver, the fault registers and
the two outputs differ. -/
def KeepsTelegram (s t : State) : Prop :=
  t = { s with rx := t.rx, fault := t.fault, faultInfo := t.faultInfo, outcome := t.outcome, result := t.result }

theorem SameRegisters.keepsTelegram {s t : State} (h : SameRegisters s t) : KeepsTelegram s t := by
  rw [h]
  rfl

theorem KeepsTelegram.fields {s t : State} (h : KeepsTelegram s t) :
    t.cfg = s.cfg ∧ t.pending = s.pending ∧ t.telegram = s.telegram :=
  h ▸ ⟨rfl, rfl, rfl⟩

theorem feedCommand_keepsTelegram {chunk : List Sample} {s t : State} (h : feedCommand chunk s = .next t) :
    KeepsTelegram s t := by
  rcases feedCommand_next h with rfl | ⟨_, _, rfl⟩ | ⟨_, _, _, _, _, _, ⟨_, _, rfl⟩ | ⟨_, _, rfl⟩⟩ <;> rfl

theorem execRestart_keepsTelegram {s t : State} (h : execRestart s = .next t) : KeepsTelegram s t := by
  rcases execRestart_next h with ⟨_, rfl⟩ | ⟨_, rfl⟩ <;> rfl

theorem execSync_keepsTelegram {chunk : List Sample} {s t : State} (h : execSync chunk s = .next t) :
    KeepsTelegram s t := by
  rcases execSync_next h with ⟨_, rfl⟩ | ⟨_, _, _, _, rfl⟩ <;> rfl

theorem execRetime_keepsTelegram {n : Nat} {s t : State} (h : execRetime n s = .next t) : KeepsTelegram s t := by
  rcases execRetime_next h with ⟨_, rfl⟩ | ⟨_, _, _, _, rfl⟩ <;> rfl

theorem execDecode36_keepsTelegram {bits : List Bool} {s t : State} (h : execDecode36 bits s = .next t) :
    KeepsTelegram s t := by
  rcases execDecode36_next h with ⟨_, rfl⟩ | ⟨_, _, _, rfl⟩ | ⟨_, _, _, rfl⟩ <;> rfl

theorem execAssemble_keepsTelegram {bytes : List Byte} {s t : State} (h : execAssemble bytes s = .next t) :
    KeepsTelegram s t := by
  rcases execAssemble_next h with ⟨_, rfl⟩ | ⟨_, rfl⟩ <;> rfl

theorem translateCodeword_keepsTelegram {cw : Codeword} {s t : State} (h : translateCodeword cw s = .next t) :
    KeepsTelegram s t := by
  rcases translateCodeword_next h with ⟨_, rfl⟩ | ⟨_, _, _, rfl⟩ | ⟨_, _, rfl⟩ <;> rfl

/-- `parse`, the function, returns the telegram and does not write it (R141). -/
theorem execParseFn_keepsTelegram {raw : List Byte} {s t : State} (h : execParseFn raw s = .next t) :
    KeepsTelegram s t := by
  rcases execParseFn_next h with ⟨_, rfl⟩ | ⟨_, _, rfl⟩ | ⟨_, _, _, rfl⟩ <;> rfl

theorem parseCommand_keeps_cfg_pending {raw : List Byte} {s t : State} (h : parseCommand raw s = .next t) :
    t.cfg = s.cfg ∧ t.pending = s.pending := by
  rcases parseCommand_next h with rfl | ⟨_, _, rfl⟩ | ⟨_, _, _, rfl⟩ <;> exact ⟨rfl, rfl⟩

theorem execReset_keeps_cfg_pending {s t : State} (h : execReset s = .next t) :
    t.cfg = s.cfg ∧ t.pending = s.pending := by
  obtain rfl := next_inj.1 h
  exact ⟨rfl, rfl⟩

/-- Settles O51: by the instruction; `PARSE`, `PARSEFRAME` and `RESET` keep the parameters and the waiting transfers, every other
instruction the telegram registers too. -/
theorem onlyParseAndResetTouchTheTelegram : Obligations.OnlyParseAndResetTouchTheTelegram := by
  intro i s t h
  have kept (hk : KeepsTelegram s t) : t.cfg = s.cfg ∧ t.pending = s.pending ∧
      ((∀ r, i ≠ .parse r) → i ≠ .parseframe → i ≠ .reset → t.telegram = s.telegram) :=
    have ⟨hcfg, hpending, htelegram⟩ := hk.fields
    ⟨hcfg, hpending, fun _ _ _ => htelegram⟩
  have same (hs : SameRegisters s t) := kept hs.keepsTelegram
  cases i with
  | parse raw =>
    have ⟨hcfg, hpending⟩ := parseCommand_keeps_cfg_pending h
    exact ⟨hcfg, hpending, fun hne => absurd rfl (hne raw)⟩
  | parseframe =>
    have ⟨hcfg, hpending⟩ := parseCommand_keeps_cfg_pending h
    exact ⟨hcfg, hpending, fun _ hne => absurd rfl hne⟩
  | reset =>
    have ⟨hcfg, hpending⟩ := execReset_keeps_cfg_pending h
    exact ⟨hcfg, hpending, fun _ _ hne => absurd rfl hne⟩
  | feed chunk => exact kept (feedCommand_keepsTelegram h)
  | serialize => exact same (execSerialize_sameRegisters h)
  | nopfeed => exact same (execNopfeed_sameRegisters h)
  | restart => exact kept (execRestart_keepsTelegram h)
  | sync chunk => exact kept (execSync_keepsTelegram h)
  | sample chunk => exact same (execSample_sameRegisters h)
  | retime n => exact kept (execRetime_keepsTelegram h)
  | decode36 bits => exact kept (execDecode36_keepsTelegram h)
  | assemble bytes => exact kept (execAssemble_keepsTelegram h)
  | pack6 group => exact same (.of_inDomain h)
  | translate cw => exact kept (translateCodeword_keepsTelegram h)
  | pack8 nibbles => exact same (.of_inDomain h)
  | genpreamble bits osf => exact same (.of_inDomain h)
  | xcorr chunk tmpl => exact same (.of_inDomain h)
  | lut36 cw => exact same (.of_returnValue h)
  | calcsize l => exact same (.of_returnValue h)
  | parseFn raw => exact kept (execParseFn_keepsTelegram h)
  | strip raw l => exact same (.of_inDomain h)
  | serializeFn tel => exact same (.of_inDomain h)
  | _ => exact kept (translateCodeword_keepsTelegram ((exec_lineWord rfl s).symm.trans h))

end Sys2Proof.Machine
end

section
/-! PROOFS. What a step runs, what the frame buffer keeps, and several instances beside each other (`spec/20_memory.md` R53, R66,
R71). -/

namespace Sys2Proof.Machine

/-! ### One step (R66) -/

/-- Settles O7: by what the next transfer is and what it decodes to. -/
theorem stepRunsTheDecodedInstruction : Obligations.StepRunsTheDecodedInstruction := by
  intro s t rest hp
  refine ⟨fun i hd => ?_, fun e hd => ?_, ?_⟩
  · rw [step, takeTransfer_cons hp]
    simp only [hd]
  · rw [step, takeTransfer_cons hp]
    simp only [hd]
  · rw [step, takeTransfer_nil rfl]

/-! ### The frame buffer (R53) -/

/-- The length of a frame reaches at least behind the bytes already stored (R27 d). -/
theorem latchLength_ge {t : Nat} {acc bytes : List Byte} (hle : t ≠ 0 → acc.length ≤ t) (hempty : t = 0 → acc = []) :
    acc.length ≤ latchLength t (acc ++ bytes) := by
  by_cases ht : t = 0
  · simp [hempty ht]
  · rw [latchLength_known ht]
    exact hle ht

/-- Settles O30: `ASSEMBLE` appends, and cuts at a length that spares the stored bytes. -/
theorem frameBufferIsAppendOnly : Obligations.FrameBufferIsAppendOnly := by
  intro s t bytes hle hempty h
  rcases execAssemble_next h with ⟨_, rfl⟩ | ⟨_, rfl⟩
  · exact List.prefix_rfl
  · rw [State.finish_rx, State.setReceiver_rx]
    rcases assembleStage_cases bytes s.rx with ⟨_, _, _, hacc⟩ | ⟨_, _, hacc⟩ <;> rw [hacc]
    · exact List.prefix_take_iff.2 ⟨List.prefix_append _ _, latchLength_ge hle hempty⟩
    · exact List.prefix_append _ _

/-! ### Several instances (R71, R170) -/

/-- Everything a platform step can answer: nothing at a position that holds no block, or the step of the block there. -/
theorem stepInstance_next {k : Nat} {p q : Platform} :
    stepInstance k p = .next q ↔
      (p[k]? = none ∧ q = p) ∨ ∃ s t, p[k]? = some s ∧ step s = .next t ∧ q = p.set k t := by
  unfold stepInstance
  cases p[k]? with
  | none => simp [eq_comm]
  | some s => cases hs : step s <;> simp [hs, eq_comm]

/-- A platform step leaves the other instances as they were. -/
theorem stepInstance_getElem?_ne {j k : Nat} (hjk : j ≠ k) {p q : Platform} (h : stepInstance j p = .next q) :
    q[k]? = p[k]? := by
  rcases stepInstance_next.1 h with ⟨_, rfl⟩ | ⟨_, t, _, _, rfl⟩
  · rfl
  · exact List.getElem?_set_ne hjk

/-- Settles O58: each of the two steps reads and writes its own position, and writes to two positions commute. -/
theorem instancesDoNotInterfere : Obligations.InstancesDoNotInterfere := by
  intro p q j k hjk hj
  have hk := stepInstance_getElem?_ne hjk hj
  refine ⟨hk, fun r hr => ?_⟩
  simp only [stepInstance_next] at hj hr ⊢
  rw [hk] at hr
  rcases hr with ⟨hnone, rfl⟩ | ⟨s, t, hs, hstep, rfl⟩
  · exact ⟨p, .inl ⟨hnone, rfl⟩, hj⟩
  · refine ⟨p.set k t, .inr ⟨s, t, hs, hstep, rfl⟩, ?_⟩
    rw [List.getElem?_set_ne hjk.symm]
    rcases hj with ⟨hnone, rfl⟩ | ⟨s', t', hs', hstep', rfl⟩
    · exact .inl ⟨hnone, rfl⟩
    · exact .inr ⟨s', t', hs', hstep', List.set_comm t' t hjk⟩

end Sys2Proof.Machine
end

section
/-! PROOFS. A stream cut into chunks (`spec/20_memory.md` R60, `41_timing_recovery.md` R112, `42_line_decoder.md` R126 c): how each
stage of `FEED` joins with its run on the next chunk, and `FEED` as a whole. -/

namespace Sys2Proof.Machine

/-! ### Timing recovery across a cut -/

/-- The three lines of `RETIME` in one (R112): with an even `OSF` the new offset is the old one counted from the end of the chunk,
modulo `OSF`. -/
theorem retimeOffset_eq {osf : Nat} (heven : osf % 2 = 0) (n : Nat) (s : Int) :
    retimeOffset n s osf = (s - n) % (osf : Int) := by
  have hhalf : ((osf / 2 : Nat) : Int) + ((osf / 2 : Nat) : Int) = osf := by omega
  unfold retimeOffset
  dsimp only
  generalize ceilDiv ((n : Int) - s - ((osf / 2 : Nat) : Int)) osf = c
  rw [show c * osf - ((n : Int) - s - ((osf / 2 : Nat) : Int)) + ((osf / 2 : Nat) : Int) = s - n + osf * (c + 1) by
    linear_combination hhalf]
  exact Int.add_mul_emod_self_left _ _ _

/-- Retiming over two chunks one after the other is retiming over both together. -/
theorem retimeOffset_append {osf : Nat} (heven : osf % 2 = 0) (n m : Nat) (s : Int) :
    retimeOffset (n + m) s osf = retimeOffset m (retimeOffset n s osf) osf := by
  simp only [retimeOffset_eq heven, Int.emod_sub_emod]
  rw [Nat.cast_add, sub_add_eq_sub_sub]

/-- The second chunk is sampled from the offset that `RETIME` leaves behind the first (R113). -/
theorem sampleBits_append_retimed {osf : Nat} (hosf : 0 < osf) (heven : osf % 2 = 0) {s : Int} (hs : 0 ≤ s) (hlt : s < osf)
    (a b : List Sample) :
    sampleBits osf s.toNat (a ++ b) =
      sampleBits osf s.toNat a ++ sampleBits osf (retimeOffset a.length s osf).toNat b := by
  rw [sampleBits_append hosf b a s.toNat (by omega), retimeOffset_eq heven, Int.toNat_of_nonneg hs]

/-! ### The line decoder across a cut -/

/-- Codewords that form whole pairs are translated whatever follows (R123). -/
theorem holdBack_even_append {a : List Codeword} (h : a.length % 2 = 0) (b : List Codeword) :
    holdBack (a ++ b) = (a ++ (holdBack b).1, (holdBack b).2) := by
  have hlen : 2 * ((a ++ b).length / 2) = a.length + 2 * (b.length / 2) := by
    rw [List.length_append]
    omega
  rw [holdBack_eq, holdBack_eq, hlen, List.take_length_add_append, List.drop_length_add_append]

/-- Pairing does not see where the codewords are cut: the one held back goes in front of those that follow (R126 c). -/
theorem holdBack_append_cut (a b : List Codeword) :
    holdBack (a ++ b) = ((holdBack a).1 ++ (holdBack ((holdBack a).2 ++ b)).1, (holdBack ((holdBack a).2 ++ b)).2) := by
  rw [← holdBack_even_append (holdBack_even a), ← List.append_assoc, holdBack_append]

/-- Two calls of `DECODE36` that do not raise give the bytes and leave the spill registers of one call on the whole stream
(R126 c). -/
theorem decode36_append {sb a b : List Bool} {sn : List Codeword} {d e : Decoded}
    (hd : decode36 sb sn a = .ok d) (he : decode36 d.2.1 d.2.2 b = .ok e) :
    decode36 sb sn (a ++ b) = .ok (d.1 ++ e.1, e.2) := by
  obtain ⟨first, hfirst, rfl⟩ := decode36_ok.1 hd
  obtain ⟨second, hsecond, rfl⟩ := decode36_ok.1 he
  have hgroup := groupBits_append (sb ++ a) b
  have hhold := holdBack_append_cut (sn ++ (groupBits (sb ++ a)).1.map pack6)
    ((groupBits ((groupBits (sb ++ a)).2 ++ b)).1.map pack6)
  have heven : first.length % 2 = 0 := by
    rw [translateAll_length hfirst]
    exact holdBack_even _
  rw [decode36_ok, ← List.append_assoc, hgroup, List.map_append, ← List.append_assoc, hhold]
  exact ⟨first ++ second, translateAll_append hfirst hsecond, by rw [pack8_append heven]⟩

/-! ### The frame assembler across a cut -/

/-- A length once latched is kept, and an unknown one is latched from what follows. -/
theorem latchLength_append_cut (t : Nat) (acc bytes : List Byte) :
    latchLength (latchLength t acc) (acc ++ bytes) = latchLength t (acc ++ bytes) := by
  cases t with
  | zero => exact latchLength_append acc bytes
  | succ t => simp only [latchLength_known (Nat.succ_ne_zero t)]

/-- `ASSEMBLE` that completes no frame keeps every byte. -/
theorem assembleStage_incomplete {bytes : List Byte} {rx : Receiver} (h : (assembleStage bytes rx).frameComplete = false) :
    assembleStage bytes rx =
      { rx with
        accumulatedBytes := rx.accumulatedBytes ++ bytes
        targetFrameLength := latchLength rx.targetFrameLength (rx.accumulatedBytes ++ bytes) } := by
  unfold assembleStage at h ⊢
  dsimp only at h ⊢
  split at h
  · cases h
  · rename_i hreached
    rw [if_neg hreached]

/-- A frame that the first bytes do not complete goes on with the next ones as if they had come together (R130). -/
theorem assembleStage_append {a : List Byte} {rx : Receiver} (h : (assembleStage a rx).frameComplete = false)
    (b : List Byte) : assembleStage b (assembleStage a rx) = assembleStage (a ++ b) rx := by
  have hlatch := latchLength_append_cut rx.targetFrameLength (rx.accumulatedBytes ++ a) b
  rw [List.append_assoc] at hlatch
  rw [assembleStage_incomplete h]
  simp only [assembleStage, List.append_assoc, hlatch]

/-- `RETIME` and `ASSEMBLE` write different registers. -/
theorem retimeStage_assembleStage (p : Params) (n : Nat) (bytes : List Byte) (rx : Receiver) :
    retimeStage p n (assembleStage bytes rx) = assembleStage bytes (retimeStage p n rx) := by
  unfold assembleStage
  dsimp only [retimeStage_accumulatedBytes, retimeStage_targetFrameLength]
  split <;> rfl

/-- The spill registers and those of `ASSEMBLE` are different registers. -/
theorem spillStage_assembleStage (d : Decoded) (bytes : List Byte) (rx : Receiver) :
    spillStage d (assembleStage bytes rx) = assembleStage bytes (spillStage d rx) := by
  unfold assembleStage
  dsimp only [spillStage_accumulatedBytes, spillStage_targetFrameLength]
  split <;> rfl

/-! ### `FEED` across a cut -/

theorem retimeStage_append {p : Params} (heven : p.osf % 2 = 0) (n m : Nat) (rx : Receiver) :
    retimeStage p (n + m) rx = retimeStage p m (retimeStage p n rx) := by
  simp only [retimeStage, retimeOffset_append heven]

/-- Inside a frame the last four stages do not see where a stream is cut, as long as the first part completes no frame: `RETIME` and
the spill registers are moved past the first `ASSEMBLE`, and then each stage joins with its own second run. -/
theorem receiveStages_append {p : Params} (hosf : 0 < p.osf) (heven : p.osf % 2 = 0) {a b : List Sample}
    {rx rx' rx'' : Receiver} (hlow : 0 ≤ rx.samplingOffset) (hhigh : rx.samplingOffset < p.osf)
    (ha : receiveStages p a rx = .ok rx') (hc : rx'.frameComplete = false) (hb : receiveStages p b rx' = .ok rx'') :
    receiveStages p (a ++ b) rx = .ok rx'' := by
  obtain ⟨d, hd, rfl⟩ := receiveStages_ok.1 ha
  obtain ⟨e, he, rfl⟩ := receiveStages_ok.1 hb
  obtain ⟨hoff, hbits, hnibbles, -⟩ := assembleStage_frame d.1 (spillStage d (retimeStage p a.length rx))
  rw [hoff, hbits, hnibbles] at he
  refine receiveStages_ok.2 ⟨(d.1 ++ e.1, e.2), ?_, ?_⟩
  · rw [sampleBits_append_retimed hosf heven hlow hhigh]
    exact decode36_append hd he
  · have hswap : spillStage e (retimeStage p b.length (assembleStage d.1 (spillStage d (retimeStage p a.length rx)))) =
        assembleStage d.1 (spillStage e (retimeStage p b.length (spillStage d (retimeStage p a.length rx)))) := by
      rw [retimeStage_assembleStage, spillStage_assembleStage]
    have hincomplete : (assembleStage d.1
        (spillStage e (retimeStage p b.length (spillStage d (retimeStage p a.length rx))))).frameComplete = false :=
      hswap ▸ hc
    rw [hswap, assembleStage_append hincomplete, List.length_append, retimeStage_append heven]
    rfl

/-- Every offset that the stages leave lies in the next symbol (R111). -/
theorem receiveStages_offset_range {p : Params} (hosf : 0 < p.osf) {chunk : List Sample} {rx rx' : Receiver}
    (h : receiveStages p chunk rx = .ok rx') : 0 ≤ rx'.samplingOffset ∧ rx'.samplingOffset < p.osf := by
  obtain ⟨d, -, rfl⟩ := receiveStages_ok.1 h
  rw [(assembleStage_frame d.1 _).1]
  exact retimeOffset_range hosf chunk.length rx.samplingOffset

/-- Inside a frame a `FEED` is its last four stages (R151 d). -/
theorem feedStages_inFrame {rx : Receiver} (hc : rx.frameComplete = false) (hs : 0 ≤ rx.samplingOffset) (p : Params)
    (chunk : List Sample) : feedStages p chunk rx = receiveStages p chunk rx := by
  rw [feedStages, alignStages_inFrame hc (by omega)]

/-- A `FEED` of a non-empty chunk that ends `done` ran its stages and committed what they left. -/
theorem feedCommand_done {chunk : List Sample} {s t : State} (hne : chunk ≠ []) (h : feedCommand chunk s = .next t)
    (hdone : t.outcome = some .done) :
    s.fault = 0 ∧ s.cfg.Valid ∧ (∀ x ∈ chunk, sampleFits s.cfg x = true) ∧
      ∃ rx, feedStages s.cfg chunk s.rx = .ok rx ∧ t = (s.setReceiver rx).finish none := by
  rcases feedCommand_next h with rfl | ⟨_, rfl, _⟩ | ⟨hf, _, hv, hfit, _, _, hrun | ⟨_, _, rfl⟩⟩
  · simp at hdone
  · exact absurd rfl hne
  · exact ⟨hf, hv, hfit, hrun⟩
  · simp at hdone

/-- Settles O45: both `FEED`s are their last four stages, which join at the cut, and the block accepts the whole stream. -/
theorem chunkBoundariesNeedNoAlignment : Obligations.ChunkBoundariesNeedNoAlignment := by
  intro s t u first second hfirst hsecond hmax hlow hhigh hopen hfeed hdone hopen' hfeed' hdone'
  obtain ⟨hf, hvalid, hfit, rx, hrx, rfl⟩ := feedCommand_done hfirst hfeed hdone
  obtain ⟨-, -, hfit', rx', hrx', rfl⟩ := feedCommand_done hsecond hfeed' hdone'
  rw [State.finish_rx, State.setReceiver_rx] at hopen' hrx'
  rw [State.finish_cfg, State.setReceiver_cfg] at hrx' hfit'
  have ⟨hosf, heven, _⟩ := hvalid
  rw [feedStages_inFrame hopen hlow] at hrx
  rw [feedStages_inFrame hopen' (receiveStages_offset_range hosf hrx).1] at hrx'
  have hjoined : feedStages s.cfg (first ++ second) s.rx = .ok rx' := by
    rw [feedStages_inFrame hopen hlow]
    exact receiveStages_append hosf heven hlow hhigh hrx hopen' hrx'
  have haccepted : FeedAccepted (first ++ second) s :=
    ⟨hf, hvalid, ⟨List.append_ne_nil_of_left_ne_nil hfirst second, List.forall_mem_append.2 ⟨hfit, hfit'⟩⟩, hmax,
      .inl (by omega)⟩
  have hrun := feedCommand_accepted haccepted
  rw [hjoined] at hrun
  exact hrun

end Sys2Proof.Machine
end

section
/-! PROOFS. Encodings (`spec/30_encoding.md`): the decoder against the encoder (R83), the words of the tables, the pseudo-operations
(R85) and the `FEED` line of the listing form (R84). -/

namespace Sys2Proof.Machine

/-! ### Decoding what was encoded (R74, R83) -/

open Sys2Proof.Laws in
/-- Decoding undoes encoding: six instructions a host gives, sixteen that have no code, and the rows of the line code. -/
theorem decode_of_encode (i : Instr) : Coding.Statement i := by
  cases i with
  | feed chunk => exact Coding.feed chunk
  | parse raw => exact Coding.parse raw
  | serialize => exact Coding.serialize
  | reset => exact Coding.reset
  | nopfeed => exact Coding.nopfeed
  | parseframe => exact Coding.parseframe
  | restart | sync _ | sample _ | retime _ | decode36 _ | assemble _ | pack6 _ | translate _ | pack8 _ | genpreamble _ _
    | xcorr _ _ | lut36 _ | calcsize _ | parseFn _ | strip _ _ | serializeFn _ => exact Coding.of_none rfl
  | _ => exact Coding.of_some rfl rfl

/-- Settles O5: by the instruction. No operand domain is needed, since none restricts an operand that has an encoding. -/
theorem decodingAnEncodedInstructionGivesItBack : Obligations.DecodingAnEncodedInstructionGivesItBack :=
  fun i t _ h => decode_of_encode i t h

/-! ### Encoding what was decoded (R83) -/

/-- Everything a command transfer decodes to: each of the four codes with its own kind of operand (R83). -/
theorem decode_command_ok {cmd : CommandCode} {o : Operand} {i : Instr} :
    decode (.command cmd o) = .ok i ↔
      (cmd = 0 ∧ ∃ c, o = .chunk c ∧ i = .feed c) ∨ (cmd = 1 ∧ ∃ r, o = .raw r ∧ i = .parse r) ∨
      (cmd = 2 ∧ o = .none ∧ i = .serialize) ∨ (cmd = 3 ∧ o = .none ∧ i = .reset) := by
  constructor
  · intro h
    simp only [decode, decodeCommand] at h
    split at h
    case h_1 c hcmd => cases h; exact .inl ⟨BitVec.eq_of_toNat_eq hcmd, c, rfl, rfl⟩
    case h_2 r hcmd => cases h; exact .inr (.inl ⟨BitVec.eq_of_toNat_eq hcmd, r, rfl, rfl⟩)
    case h_3 hcmd => cases h; exact .inr (.inr (.inl ⟨BitVec.eq_of_toNat_eq hcmd, rfl, rfl⟩))
    case h_4 hcmd => cases h; exact .inr (.inr (.inr ⟨BitVec.eq_of_toNat_eq hcmd, rfl, rfl⟩))
    case h_5 => cases h
  · rintro (⟨rfl, c, rfl, rfl⟩ | ⟨rfl, r, rfl, rfl⟩ | ⟨rfl, rfl, rfl⟩ | ⟨rfl, rfl, rfl⟩) <;> rfl

/-- A row of the line code has no operand to be out of its domain. -/
theorem lineInstr_wellFormed (cw : Codeword) : (lineInstr cw).wellFormed = true := by
  revert cw
  decide

/-- Encoding undoes decoding, and nothing decodes to an instruction outside its domain. -/
theorem encode_of_decode {t : Transfer} {i : Instr} (h : decode t = .ok i) :
    encode i = some t ∧ i.wellFormed = true := by
  cases t with
  | command cmd o =>
    rcases decode_command_ok.1 h with ⟨rfl, c, rfl, rfl⟩ | ⟨rfl, r, rfl, rfl⟩ | ⟨rfl, rfl, rfl⟩ | ⟨rfl, rfl, rfl⟩ <;>
      exact ⟨rfl, rfl⟩
  | pseudo p => cases p <;> cases h <;> exact ⟨rfl, rfl⟩
  | lineWord cw =>
    cases h
    exact ⟨encode_lineInstr cw, lineInstr_wellFormed cw⟩

/-- Settles O6: by the kind of transfer; the clauses about commands are read off `decode_command_ok`. -/
theorem everyTransferIsOneInstruction : Obligations.EveryTransferIsOneInstruction := by
  refine ⟨fun t i h => encode_of_decode h, fun cmd o => ⟨⟨?_, ?_⟩, fun _ => rfl, fun _ => rfl, rfl, rfl, ?_⟩⟩
  · rintro ⟨i, h⟩
    rcases decode_command_ok.1 h with ⟨hcmd, c, ho, -⟩ | ⟨hcmd, r, ho, -⟩ | ⟨hcmd, ho, -⟩ | ⟨hcmd, ho, -⟩
    · exact .inl ⟨hcmd, c, ho⟩
    · exact .inr (.inl ⟨hcmd, r, ho⟩)
    · exact .inr (.inr (.inl ⟨hcmd, ho⟩))
    · exact .inr (.inr (.inr ⟨hcmd, ho⟩))
  · rintro (⟨hcmd, c, ho⟩ | ⟨hcmd, r, ho⟩ | ⟨hcmd, ho⟩ | ⟨hcmd, ho⟩)
    · exact ⟨.feed c, decode_command_ok.2 (.inl ⟨hcmd, c, ho, rfl⟩)⟩
    · exact ⟨.parse r, decode_command_ok.2 (.inr (.inl ⟨hcmd, r, ho, rfl⟩))⟩
    · exact ⟨.serialize, decode_command_ok.2 (.inr (.inr (.inl ⟨hcmd, ho, rfl⟩)))⟩
    · exact ⟨.reset, decode_command_ok.2 (.inr (.inr (.inr ⟨hcmd, ho, rfl⟩)))⟩
  · intro i h
    rcases decode_command_ok.1 h with ⟨-, c, -, hi⟩ | ⟨-, r, -, hi⟩ | ⟨-, -, hi⟩ | ⟨-, -, hi⟩
    · exact .inl ⟨c, hi⟩
    · exact .inr (.inl ⟨r, hi⟩)
    · exact .inr (.inr (.inl hi))
    · exact .inr (.inr (.inr hi))

/-! ### The words of the tables and the pseudo-operations (R75, R81, R83, R85) -/

/-- Settles O4: nine words, each read by the table of its width. -/
theorem tableWordsDecodeToTheirRows : Obligations.TableWordsDecodeToTheirRows :=
  ⟨rfl, rfl, rfl, rfl, rfl, rfl, rfl, rfl, rfl⟩

/-- Settles O3: each pseudo-operation is dispatched to the command it expands to. -/
theorem pseudoOperationsAddNoBehaviour : Obligations.PseudoOperationsAddNoBehaviour :=
  fun s => ⟨execNopfeed_eq s, execParseframe_eq s⟩

/-! ### A `FEED` line with a sign string (R84) -/

/-- The text before a closing character that ends the line. -/
theorem upTo_append_close {close : Char} {text : List Char} (h : close ∉ text) :
    upTo close (text ++ [close]) = some text := by
  have hne : ∀ c ∈ text, decide (c ≠ close) = true := fun c hc => decide_eq_true fun he => h (he ▸ hc)
  rw [upTo, List.dropWhile_append_of_pos hne, List.takeWhile_append_of_pos hne]
  simp

/-- A line without a `;` has no comment. -/
theorem withoutComment_self {line : List Char} (h : ';' ∉ line) : withoutComment line = line :=
  List.takeWhile_eq_self_iff.2 fun _ hc => decide_eq_true fun he => h (he ▸ hc)

/-- A sign string of any length is read character by character. -/
theorem mapM_signSample {signs : List Char} (h : ∀ c ∈ signs, c = '+' ∨ c = '-' ∨ c = '0') :
    signs.mapM signSample = some (signs.map fun c => if c = '+' then 1 else if c = '-' then -1 else 0) := by
  induction signs with
  | nil => rfl
  | cons c rest ih =>
    obtain ⟨hc, hrest⟩ := List.forall_mem_cons.1 h
    rw [List.mapM_cons, ih hrest]
    rcases hc with rfl | rfl | rfl <;> rfl

/-- What a `FEED` line means is what its operand means. -/
theorem readLine_feed {operand : List Char} (h : ';' ∉ operand) :
    readLine (['F', 'E', 'E', 'D', ' '] ++ operand) = (chunkOf (' ' :: operand)).map fun c => .command 0 (.chunk c) := by
  rw [readLine, withoutComment_self (by simpa using h)]
  rfl

/-- A quoted operand is the samples of what stands between the quotes. -/
theorem chunkOf_quoted {signs : List Char} (h : '"' ∉ signs) :
    chunkOf (' ' :: '"' :: (signs ++ ['"'])) = signs.mapM signSample := by
  have hread : chunkOf (' ' :: '"' :: (signs ++ ['"'])) =
      (upTo '"' (signs ++ ['"'])).bind fun inside => inside.mapM signSample := rfl
  rw [hread, upTo_append_close h, Option.bind_some]

/-- Settles O8: a sign string holds neither a `;` nor a quote, so the whole of it reaches the samples. -/
theorem signStringLinesReadAsFeed : Obligations.SignStringLinesReadAsFeed := by
  intro signs h
  have hquote : '"' ∉ signs := fun hc => by simpa using h _ hc
  have hcomment : ';' ∉ signs := fun hc => by simpa using h _ hc
  have hline := readLine_feed (operand := '"' :: (signs ++ ['"'])) (by simpa using hcomment)
  rw [chunkOf_quoted hquote, mapM_signSample h] at hline
  exact hline

end Sys2Proof.Machine
end

section
/-! PROOFS. The line code (`spec/30_encoding.md` R75, R80, R81): `TRANSLATE` and `LUT36` against the table, and a stream of inverted
bits (`93_implementation_defined.md` U16). -/

namespace Sys2Proof.Machine

/-! ### One codeword -/

theorem translateCodeword_valid {cw : Codeword} {n : Nibble} {s : State} (hf : s.fault = 0) (h : lut36 cw = some n) :
    translateCodeword cw s = .next (s.finish (some (.nibble n))) := by
  rw [translateCodeword, unlessFaulted_clear hf, translate_ok.2 h]
  rfl

theorem translateCodeword_illegal {cw : Codeword} {s : State} (hf : s.fault = 0) (h : lut36 cw = none) :
    translateCodeword cw s = .next (s.raise .invalidLineCode (zextCodeword cw)) := by
  rw [translateCodeword, unlessFaulted_clear hf, translate_error.2 ⟨h, rfl⟩]
  rfl

/-- Settles O16: the word of a valid row is the one that its nibble is sent as. -/
theorem validCodewordsTranslateToTheirNibbles : Obligations.ValidCodewordsTranslateToTheirNibbles := by
  intro s hf row hrow
  have ⟨hword, hnibble⟩ : encode row.1 = some (.lineWord (codewordOf row.2)) ∧ lut36 (codewordOf row.2) = some row.2 := by
    revert row
    decide
  rw [exec_lineWord hword]
  exact translateCodeword_valid hf hnibble

/-- Settles O17: the word of an illegal row is the low six bits of its `faultInfo`. -/
theorem illegalCodewordsRaiseInvalidLineCode : Obligations.IllegalCodewordsRaiseInvalidLineCode := by
  intro s hf row hrow
  have ⟨hword, hillegal, hinfo⟩ : encode row.1 = some (.lineWord (row.2.setWidth 6)) ∧
      lut36 (row.2.setWidth 6) = none ∧ zextCodeword (row.2.setWidth 6) = row.2 := by
    revert row
    decide
  rw [exec_lineWord hword, translateCodeword_illegal hf hillegal, hinfo]
  rfl

/-- `LUT36` is its table read as a relation: no codeword stands in it twice (R75). -/
theorem lut36_eq_some {cw : Codeword} {n : Nibble} : lut36 cw = some n ↔ (cw, n) ∈ lineCode := by
  revert cw n
  decide

/-- Settles O18: the entry is `LUT36`'s own, and `TRANSLATE` answers by it. -/
theorem lutHoldsTheThreeOfSixTable : Obligations.LutHoldsTheThreeOfSixTable := fun _ cw =>
  ⟨lut36 cw, rfl, fun _ => lut36_eq_some, fun hf _ hn => translateCodeword_valid hf hn,
    fun hf hnone => translateCodeword_illegal hf hnone⟩

/-! ### A stream of inverted bits (U16) -/

/-- Grouping looks at the number of bits only. -/
theorem groupBits_map (f : Bool → Bool) (bits : List Bool) :
    groupBits (bits.map f) = ((groupBits bits).1.map (List.map f), (groupBits bits).2.map f) := by
  induction bits using groupBits.induct with
  | case1 b0 b1 b2 b3 b4 b5 rest ih => simp [groupBits, ih]
  | case2 rest h =>
    have hrest : groupBits rest = ([], rest) := by rw [groupBits]; exact h
    have hshort : rest.length < 6 := by
      have hgroups := (groupBits_length rest).1
      rw [hrest, List.length_nil] at hgroups
      omega
    rw [hrest, groupBits_short (by simpa using hshort)]
    rfl

/-- Six inverted bits pack to the complement (R74). -/
theorem pack6_not (b0 b1 b2 b3 b4 b5 : Bool) :
    pack6 [!b0, !b1, !b2, !b3, !b4, !b5] = ~~~pack6 [b0, b1, b2, b3, b4, b5] := by
  revert b0 b1 b2 b3 b4 b5
  decide

/-- The codewords of an inverted stream are the complements of those of the upright one. -/
theorem codewords_not (bits : List Bool) :
    (groupBits (bits.map (! ·))).1.map pack6 = ((groupBits bits).1.map pack6).map (~~~ ·) := by
  induction bits using groupBits.induct with
  | case1 b0 b1 b2 b3 b4 b5 rest ih => simp [groupBits, ih, pack6_not]
  | case2 rest h =>
    have hrest : groupBits rest = ([], rest) := by rw [groupBits]; exact h
    rw [groupBits_map, hrest]
    rfl

/-- The table is closed under complement: the complement of a codeword stands for the complement of its nibble (R75). -/
theorem lut36_not (cw : Codeword) : lut36 (~~~cw) = (lut36 cw).map (~~~ ·) := by
  revert cw
  decide

/-- Which codewords are held back depends on their number only. -/
theorem holdBack_map (f : Codeword → Codeword) (all : List Codeword) :
    holdBack (all.map f) = ((holdBack all).1.map f, (holdBack all).2.map f) := by
  simp [holdBack_eq]

theorem translateAll_not {cws : List Codeword} {ns : List Nibble} (h : translateAll cws = .ok ns) :
    translateAll (cws.map (~~~ ·)) = .ok (ns.map (~~~ ·)) := by
  rw [translateAll_ok] at *
  have hnot : (cws.map (~~~ ·)).map lut36 = (cws.map lut36).map (Option.map (~~~ ·)) := by
    simp [lut36_not]
  rw [hnot, h]
  simp

theorem byteOfNibbles_not (hi lo : Nibble) : byteOfNibbles (~~~hi) (~~~lo) = ~~~byteOfNibbles hi lo := by
  revert hi lo
  decide

theorem pack8_not (ns : List Nibble) : pack8 (ns.map (~~~ ·)) = (pack8 ns).map (~~~ ·) := by
  induction ns using pack8.induct with
  | case1 hi lo rest ih => simp [pack8, ih, byteOfNibbles_not]
  | case2 ns h =>
    rcases ns with _ | ⟨x, _ | ⟨y, r⟩⟩
    · rfl
    · rfl
    · exact absurd rfl (h x y r)

/-- `DECODE36` from empty spill registers: where the upright stream raises nothing, the inverted one gives the complements. -/
theorem decode36_not {bits : List Bool} {d : Decoded} (h : decode36 [] [] bits = .ok d) :
    decode36 [] [] (bits.map (! ·)) = .ok (d.1.map (~~~ ·), d.2.1.map (! ·), d.2.2.map (~~~ ·)) := by
  obtain ⟨ns, hns, rfl⟩ := decode36_ok.1 h
  simp only [List.nil_append] at hns
  have htranslated := translateAll_not hns
  refine decode36_ok.2 ⟨ns.map (~~~ ·), ?_, ?_⟩
  · rw [List.nil_append, List.nil_append, codewords_not, holdBack_map]
    exact htranslated
  · simp only [List.nil_append]
    rw [codewords_not, holdBack_map, pack8_not, groupBits_map]

/-- `DECODE36` run by itself where it raises nothing. -/
theorem execDecode36_ok {bits : List Bool} {s : State} {d : Decoded} (hf : s.fault = 0)
    (h : decode36 s.rx.spilledBits s.rx.spilledNibbles bits = .ok d) :
    execDecode36 bits s = .next ((s.setReceiver (spillStage d s.rx)).finish (some (.bytes d.1))) := by
  rw [execDecode36, unlessFaulted_clear hf, h]

/-- Settles O26: a run that returns bytes raised nothing, and each step of `DECODE36` commutes with the complement. -/
theorem invertedStreamDecodesToTheComplement : Obligations.InvertedStreamDecodesToTheComplement := by
  intro s t bits bytes hsb hsn h hbytes
  rcases execDecode36_next h with ⟨_, rfl⟩ | ⟨hf, d, hd, rfl⟩ | ⟨_, _, _, rfl⟩
  · simp at hbytes
  · obtain rfl : d.1 = bytes := by simpa using hbytes
    rw [hsb, hsn] at hd
    have hnot := decode36_not hd
    rw [← hsb, ← hsn] at hnot
    exact ⟨_, execDecode36_ok hf hnot, rfl⟩
  · simp at hbytes

end Sys2Proof.Machine
end

section
/-! PROOFS. What `PARSE` writes (`spec/30_encoding.md` R77, `44_telegram_parser.md` R141, R142), byte by byte. -/

namespace Sys2Proof.Machine

/-! ### The data bytes by position (R76, R142) -/

/-- A clipped stretch, index by index: what lies past the end is left out (R13). -/
theorem clip_eq_filterMap {α : Type} (s : List α) (a k : Nat) :
    clip s a (a + k) = (List.range k).filterMap fun i => s[a + i]? := by
  rw [clip, Nat.add_sub_cancel_left]
  induction k with
  | zero => simp
  | succ k ih =>
    rw [List.take_add_one, ih, List.range_succ, List.filterMap_append, List.getElem?_drop]
    cases h : s[a + k]? <;> simp [h]

/-- The part of a range behind `m` blocks of `size` lies in block `m`. -/
theorem filterMap_range_block {α : Type} {size r : Nat} (hr : r ≤ size) (f : Nat → Nat → Option α) (m : Nat) :
    ((List.range r).map (size * m + ·)).filterMap (fun i => f (i / size) (i % size)) = (List.range r).filterMap (f m) := by
  rw [List.filterMap_map]
  refine List.filterMap_congr fun i hi => ?_
  have hlt : i < size := (List.mem_range.1 hi).trans_le hr
  simp [Nat.mul_add_div (by omega : 0 < size), Nat.div_eq_of_lt hlt, Nat.mod_eq_of_lt hlt]

/-- A range of whole blocks, read block by block. -/
theorem filterMap_range_blocks {α : Type} (size : Nat) (f : Nat → Nat → Option α) (m : Nat) :
    (List.range (size * m)).filterMap (fun i => f (i / size) (i % size)) =
      (List.range m).flatMap fun j => (List.range size).filterMap (f j) := by
  induction m with
  | zero => rfl
  | succ m ih =>
    rw [Nat.mul_succ, List.range_add, List.filterMap_append, ih, filterMap_range_block le_rfl, List.range_succ,
      List.flatMap_append, List.flatMap_singleton]

theorem blockCount_eq (l : Byte) : blockCount l = if l.toNat < 9 then 0 else (l.toNat - 9) / 16 + 1 := by
  unfold blockCount
  split <;> omega

theorem lastBlockSize_eq {l : Byte} (h : 9 ≤ l.toNat) :
    lastBlockSize l = if (l.toNat - 9) % 16 = 0 then 16 else (l.toNat - 9) % 16 := by
  unfold lastBlockSize
  dsimp only
  split <;> split <;> omega

theorem blockData_eq (raw : List Byte) (l : Byte) (j : Nat) :
    blockData raw l j = (List.range (if j + 1 < blockCount l then 16 else lastBlockSize l)).filterMap
      fun i => raw[12 + 18 * j + i]? :=
  clip_eq_filterMap raw _ _

/-- `STRIP` takes the data bytes that the positions of the format-A layout give, block by block. -/
theorem strip_eq_data (raw : List Byte) (l : Byte) : strip raw l = Sys2Proof.Spec.data raw l := by
  by_cases hl : l.toNat < 9
  · simp [strip, Sys2Proof.Spec.data, Sys2Proof.Spec.dataBytes, blockCount_eq, hl]
  · have hcount : blockCount l = (l.toNat - 9) / 16 + 1 := by rw [blockCount_eq, if_neg hl]
    have hlast : lastBlockSize l ≤ 16 := by rw [lastBlockSize_eq (by omega)]; split <;> omega
    have hbytes : Sys2Proof.Spec.dataBytes l = 16 * ((l.toNat - 9) / 16) + lastBlockSize l := by
      rw [Sys2Proof.Spec.dataBytes, if_neg hl, lastBlockSize_eq (by omega)]
    have hdata := filterMap_range_blocks 16 (fun j i => raw[12 + 18 * j + i]?) ((l.toNat - 9) / 16)
    rw [Sys2Proof.Spec.data, hbytes, List.range_add, List.filterMap_append, hdata,
      filterMap_range_block hlast (fun j i => raw[12 + 18 * j + i]?), strip, hcount, List.range_succ,
      List.flatMap_append, List.flatMap_singleton]
    congr 1
    · refine List.flatMap_congr fun j hj => ?_
      rw [blockData_eq, if_pos (by have := List.mem_range.1 hj; omega)]
    · rw [blockData_eq, if_neg (by omega)]

/-! ### The header (R58, R77) -/

/-- Little-endian: the second byte counts 256 times (R58). -/
theorem halfAt_toNat (raw : List Byte) (i : Nat) :
    (halfAt raw i).toNat = (raw.getD i 0).toNat + 256 * (raw.getD (i + 1) 0).toNat := by
  unfold halfAt byteAt
  generalize raw.getD i 0 = lo
  generalize raw.getD (i + 1) 0 = hi
  have hlo := lo.isLt
  have hhi := hi.isLt
  rw [BitVec.toNat_or, BitVec.toNat_shiftLeft, BitVec.toNat_setWidth, BitVec.toNat_setWidth,
    Nat.mod_eq_of_lt (by omega : lo.toNat < 2 ^ 16), Nat.mod_eq_of_lt (by omega : hi.toNat < 2 ^ 16),
    Nat.mod_eq_of_lt (by rw [Nat.shiftLeft_eq]; omega), Nat.or_comm, ← Nat.shiftLeft_add_eq_or_of_lt hlo, Nat.shiftLeft_eq]
  omega

/-- The bytes 4 to 9 of a frame that has them. -/
theorem addressAt_eq {raw : List Byte} (h : 13 ≤ raw.length) :
    [byteAt raw 4, byteAt raw 5, byteAt raw 6, byteAt raw 7, byteAt raw 8, byteAt raw 9] = (raw.drop 4).take 6 := by
  match raw, h with
  | _ :: _ :: _ :: _ :: _ :: _ :: _ :: _ :: _ :: _ :: _, _ => rfl

/-- `parse` raises nothing on more than 12 bytes. -/
theorem parseRaw_long {raw : List Byte} (h : 13 ≤ raw.length) : ∃ t, parseRaw raw = .ok t := by
  cases hp : parseRaw raw with
  | ok t => exact ⟨t, rfl⟩
  | error n => have := (parseRaw_error.1 hp).1; omega

/-- Settles O33: the telegram is the one `parse` returns. -/
theorem parseFillsTheTelegramRegisters : Obligations.ParseFillsTheTelegramRegisters := by
  intro s raw hacc hlen
  have hp := parseCommand_accepted hacc
  simp only [parseRaw, if_neg (by omega : ¬ raw.length ≤ 12)] at hp
  refine ⟨_, rfl, rfl, halfAt_toNat raw 2, addressAt_eq hlen, halfAt_toNat raw 10, rfl, ?_, hp, ?_⟩
  · rw [← strip_eq_data]
    rfl
  · rintro rfl
    exact hp

end Sys2Proof.Machine
end

section
/-! PROOFS. The scale of the samples (`spec/30_encoding.md` R73): no stage of `FEED` sees a positive factor. -/

namespace Sys2Proof.Machine

theorem sampleAt_scale (a : Int) (chunk : List Sample) (i : Int) :
    sampleAt (chunk.map (a * ·)) i = a * sampleAt chunk i := by
  unfold sampleAt
  split
  · simp only [List.getD_eq_getElem?_getD, List.getElem?_map]
    cases chunk[i.toNat]? <;> simp
  · simp

/-- Correlation is linear in the chunk (R101). -/
theorem xcorr_scale (a : Int) (chunk : List Sample) (tmpl : List Int) :
    xcorr (chunk.map (a * ·)) tmpl = (xcorr chunk tmpl).map (a * ·) := by
  have hk (k : Nat) : correlationAt (chunk.map (a * ·)) tmpl k = a * correlationAt chunk tmpl k := by
    simp only [correlationAt, sampleAt_scale, mul_assoc, List.sum_map_mul_left]
  simp [xcorr, hk]

/-- The first greatest magnitude keeps its place under a positive factor (R102). -/
theorem peakIndex_scale {a : Int} (ha : 0 < a) (c : List Int) : peakIndex (c.map (a * ·)) = peakIndex c := by
  have hle (v w : Int) : (a * w).natAbs ≤ (a * v).natAbs ↔ w.natAbs ≤ v.natAbs := by
    rw [Int.natAbs_mul, Int.natAbs_mul]
    exact Nat.mul_le_mul_left_iff (Int.natAbs_pos.2 ha.ne')
  simp only [peakIndex, List.findIdx_map, List.all_map, Function.comp_def, hle]

theorem syncStage_scale {a : Int} (ha : 0 < a) (p : Params) (chunk : List Sample) (rx : Receiver) :
    syncStage p (chunk.map (a * ·)) rx = syncStage p chunk rx := by
  simp only [syncStage, syncOffset, xcorr_scale, peakIndex_scale ha]

theorem alignStages_scale {a : Int} (ha : 0 < a) (p : Params) (chunk : List Sample) (rx : Receiver) :
    alignStages p (chunk.map (a * ·)) rx = alignStages p chunk rx := by
  simp only [alignStages, syncStage_scale ha]

theorem receiveStages_scale {a : Int} (ha : 0 < a) (p : Params) (chunk : List Sample) (rx : Receiver) :
    receiveStages p (chunk.map (a * ·)) rx = receiveStages p chunk rx := by
  simp only [receiveStages, sampleBits_scale ha, List.length_map]

/-- Settles O44: the tests before the work see the number of samples, which both chunks share, and the stages see no scale. -/
theorem feedIgnoresTheScaleOfTheSamples : Obligations.FeedIgnoresTheScaleOfTheSamples := by
  intro s chunk a ha hfit hscaled
  have hchunk : feedChunk (chunk.map (a * ·)) s = feedChunk chunk s := by
    simp only [feedChunk, alignStages_scale ha, receiveStages_scale ha]
  have hfit' : ∀ x ∈ chunk.map (a * ·), sampleFits s.cfg x = true := List.forall_mem_map.2 hscaled
  change feedCommand _ s = feedCommand chunk s
  simp only [feedCommand, whenSamplesFit_fit hfit, whenSamplesFit_fit hfit', hchunk, List.length_map, List.map_eq_nil_iff]

end Sys2Proof.Machine
end

section
/-! PROOFS. The synchronizer (`spec/40_synchronizer.md` R100 to R103): the template, the sums of the correlation, and where `SYNC`
points. -/

namespace Sys2Proof.Machine

/-! ### The template (R100) -/

/-- Value `j` of `GENPREAMBLE` is `bits[floor(j / osf)]`; both sides end at the same `j`. -/
theorem genPreamble_getElem? {osf : Nat} (hosf : 0 < osf) (bits : List Int) (j : Nat) :
    (genPreamble bits osf)[j]? = bits[j / osf]? := by
  induction bits generalizing j with
  | nil => rfl
  | cons b rest ih =>
    change (List.replicate osf b ++ genPreamble rest osf)[j]? = _
    by_cases hj : j < osf
    · rw [List.getElem?_append_left (by simpa using hj), List.getElem?_replicate_of_lt hj, Nat.div_eq_of_lt hj]
      rfl
    · rw [List.getElem?_append_right (by simpa using hj), List.length_replicate, ih,
        Nat.div_eq_sub_div hosf (not_lt.1 hj), List.getElem?_cons_succ]

/-- The template is made of `+1` and `-1` (R8, R100). -/
theorem mem_template {p : Params} (h : p.Valid) {v : Int} (hv : v ∈ template p) : v = 1 ∨ v = -1 := by
  obtain ⟨_, _, _, hsigns, _⟩ := h
  obtain ⟨b, hb, hvb⟩ := List.mem_flatMap.1 hv
  rw [List.eq_of_mem_replicate hvb]
  exact hsigns b hb

/-- Settles O9: the values are those of `genPreamble`, read by position. -/
theorem genpreambleRepeatsEachElement : Obligations.GenpreambleRepeatsEachElement := by
  intro s bits osf hosf
  refine ⟨genPreamble bits osf, ?_, genPreamble_length bits osf, fun j _ => genPreamble_getElem? hosf bits j, ?_⟩
  · exact whenInDomain_ok (i := .genpreamble bits osf) (decide_eq_true hosf) _
  · rintro rfl rfl
    rfl

/-! ### The correlation (R101, R103) -/

/-- The sample under `tmpl[j]` in `c[k]`, with the index of R101 as a natural number. -/
theorem sampleAt_shifted (chunk : List Int) (m k j : Nat) :
    sampleAt chunk ((k : Int) - ((m : Int) - 1) + (j : Int)) =
      if m ≤ k + j + 1 then chunk.getD (k + j + 1 - m) 0 else 0 := by
  unfold sampleAt
  split_ifs
  · congr 1
    omega
  · omega
  · omega
  · rfl

/-- `c[k]` as a sum over natural indices. -/
theorem correlationAt_eq_sum (chunk tmpl : List Int) (k : Nat) :
    correlationAt chunk tmpl k = ∑ j ∈ Finset.range tmpl.length,
      (if tmpl.length ≤ k + j + 1 then chunk.getD (k + j + 1 - tmpl.length) 0 else 0) * tmpl.getD j 0 := by
  simp only [correlationAt, sampleAt_shifted]
  rfl

/-- Settles O10: the list is `xcorr`, and each of its values is a correlation sum. -/
theorem xcorrReturnsTheFullCorrelation : Obligations.XcorrReturnsTheFullCorrelation := by
  intro s chunk tmpl hchunk htmpl
  refine ⟨xcorr chunk tmpl, ?_, xcorr_length chunk tmpl, fun k hk => ?_⟩
  · exact whenInDomain_ok (by simp [Instr.wellFormed, hchunk, htmpl]) _
  · rw [List.getD_eq_getElem _ _ hk, xcorr_getElem, correlationAt_eq_sum]

/-- Where the chunk holds a copy of `tmpl` scaled by `a`, the correlation is `a` times the sum of the template's squares. -/
theorem correlationAt_copy {tmpl : List Int} (hne : tmpl ≠ []) (a : Int) (before after : List Int) :
    correlationAt (before ++ tmpl.map (a * ·) ++ after) tmpl (before.length + tmpl.length - 1) =
      ∑ j ∈ Finset.range tmpl.length, a * (tmpl.getD j 0 * tmpl.getD j 0) := by
  have hpos : 0 < tmpl.length := List.length_pos_iff.2 hne
  rw [correlationAt_eq_sum]
  refine Finset.sum_congr rfl fun j hj => ?_
  have hj : j < tmpl.length := Finset.mem_range.1 hj
  rw [if_pos (by omega), show before.length + tmpl.length - 1 + j + 1 - tmpl.length = before.length + j by omega,
    List.append_assoc, List.getD_append_right _ _ _ _ (by omega), Nat.add_sub_cancel_left,
    List.getD_append _ _ _ _ (by simpa using hj)]
  simp [hj, mul_assoc]

/-- Settles O13: each square of a template value is 1. -/
theorem templateCopyCorrelatesToAmplitudeTimesLength :
    Obligations.TemplateCopyCorrelatesToAmplitudeTimesLength := by
  intro cfg a before after hv
  rw [correlationAt_copy (template_ne_nil hv), ← template_length]
  have hsquare : ∀ j ∈ Finset.range (template cfg).length,
      a * ((template cfg).getD j 0 * (template cfg).getD j 0) = a := fun j hj => by
    rw [List.getD_eq_getElem _ _ (Finset.mem_range.1 hj)]
    rcases mem_template hv (List.getElem_mem (Finset.mem_range.1 hj)) with h | h <;> simp [h]
  rw [Finset.sum_congr rfl hsquare, Finset.sum_const, Finset.card_range, nsmul_eq_mul, mul_comm]

/-! ### The peak (R102) -/

/-- `SYNC` on a chunk that it accepts writes the offset of R102 and nothing else. -/
theorem execSync_accepted {chunk : List Sample} {s : State} (hf : s.fault = 0) (hv : s.cfg.Valid)
    (hc : ChunkOk s.cfg chunk) :
    execSync chunk s = .next ((s.setReceiver (syncStage s.cfg chunk s.rx)).finish none) := by
  rw [execSync, unlessFaulted_clear hf, whenBuilt_valid hv, whenInDomain_ok (by simpa [Instr.wellFormed] using hc.1),
    whenSamplesFit_fit hc.2]

/-- The peak is an index of the correlation, has the greatest magnitude in it, and is the first to have it (R102). -/
theorem peakIndex_xcorr_spec {chunk tmpl : List Int} (hchunk : chunk ≠ []) (htmpl : tmpl ≠ []) :
    peakIndex (xcorr chunk tmpl) < chunk.length + tmpl.length - 1 ∧
      (∀ k, k < chunk.length + tmpl.length - 1 → (correlationAt chunk tmpl k).natAbs ≤
        (correlationAt chunk tmpl (peakIndex (xcorr chunk tmpl))).natAbs) ∧
      ∀ k, k < peakIndex (xcorr chunk tmpl) → (correlationAt chunk tmpl k).natAbs <
        (correlationAt chunk tmpl (peakIndex (xcorr chunk tmpl))).natAbs := by
  have hlen := xcorr_length chunk tmpl
  have hne : xcorr chunk tmpl ≠ [] := List.ne_nil_of_length_pos <| by
    have := List.length_pos_iff.2 hchunk
    have := List.length_pos_iff.2 htmpl
    omega
  obtain ⟨hpeak, hmax, hfirst⟩ := peakIndex_spec hne
  simp only [xcorr_getElem] at hmax hfirst
  refine ⟨hlen ▸ hpeak, fun k hk => ?_, fun k hk => hfirst k (hk.trans hpeak) hk⟩
  have hk : k < (xcorr chunk tmpl).length := by omega
  exact hmax _ (xcorr_getElem chunk tmpl k hk ▸ List.getElem_mem hk)

/-- Settles O11: `k` is the peak of the correlation with the template. -/
theorem syncPointsBehindTheFirstPeak : Obligations.SyncPointsBehindTheFirstPeak := by
  intro s chunk hf hv hc
  obtain ⟨hlt, hmax, hfirst⟩ := peakIndex_xcorr_spec hc.1 (template_ne_nil hv)
  exact ⟨_, hlt, hmax, hfirst, execSync_accepted hf hv hc⟩

/-- A silent chunk correlates to 0 everywhere. -/
theorem correlationAt_silent (n : Nat) (tmpl : List Int) (k : Nat) : correlationAt (List.replicate n 0) tmpl k = 0 := by
  simp [correlationAt_eq_sum]

/-- With nothing to tell the sums apart, the first is the peak (R102 a). -/
theorem peakIndex_silent {n : Nat} (hn : 0 < n) {tmpl : List Int} (htmpl : tmpl ≠ []) :
    peakIndex (xcorr (List.replicate n 0) tmpl) = 0 := by
  obtain ⟨_, _, hfirst⟩ := peakIndex_xcorr_spec (chunk := List.replicate n 0) (by simpa using hn.ne') htmpl
  by_contra hne
  simpa [correlationAt_silent] using hfirst 0 (Nat.pos_of_ne_zero hne)

/-- Settles O12: the peak of a silent chunk is at index 0. -/
theorem silentChunkSynchronisesAtHalfASymbol : Obligations.SilentChunkSynchronisesAtHalfASymbol := by
  intro s n hf hv hn hzero
  have hc : ChunkOk s.cfg (List.replicate n 0) :=
    ⟨by simpa using hn.ne', fun x hx => List.eq_of_mem_replicate hx ▸ hzero⟩
  have hsync : syncStage s.cfg (List.replicate n 0) s.rx = { s.rx with samplingOffset := (s.cfg.osf : Int) / 2 } := by
    simp [syncStage, syncOffset, peakIndex_silent hn (template_ne_nil hv)]
  exact (execSync_accepted hf hv hc).trans (by rw [hsync]; rfl)

end Sys2Proof.Machine
end

section
/-! PROOFS. The receiver behind a transmitter (`spec/41_timing_recovery.md` R110, `42_line_decoder.md` R120,
`43_frame_assembler.md` R130): each stage of `FEED` undoes what the transmitter of `Machine/Transmitter.lean` did. -/

namespace Sys2Proof.Machine

/-! ### Sampling undoes the symbols -/

theorem sampleBits_skip_replicate (osf n skip : Nat) (x : Sample) (tail : List Sample) :
    sampleBits osf (n + skip) (List.replicate n x ++ tail) = sampleBits osf skip tail := by
  simpa using sampleBits_skip osf (List.replicate n x) tail skip

/-- The samples of one symbol, met within it, give one bit, and the next symbol is met at the same place. -/
theorem sampleBits_symbol {osf : Nat} (x : Sample) (tail : List Sample) {skip : Nat} (h : skip < osf) :
    sampleBits osf skip (List.replicate osf x ++ tail) = bitOf x :: sampleBits osf skip tail := by
  obtain ⟨later, hosf⟩ : ∃ later, osf = skip + (later + 1) := ⟨osf - skip - 1, by omega⟩
  have hsplit : List.replicate osf x ++ tail = List.replicate skip x ++ x :: (List.replicate later x ++ tail) := by
    rw [hosf, List.replicate_add, List.replicate_succ, List.append_assoc, List.cons_append]
  calc sampleBits osf skip (List.replicate osf x ++ tail)
      = sampleBits osf 0 (x :: (List.replicate later x ++ tail)) := by
        rw [hsplit]
        exact sampleBits_skip_replicate osf skip 0 x _
    _ = bitOf x :: sampleBits osf (later + skip) (List.replicate later x ++ tail) := by
        rw [sampleBits_zero, show osf - 1 = later + skip by omega]
    _ = bitOf x :: sampleBits osf skip tail := by rw [sampleBits_skip_replicate]

/-- Sampling from within the first symbol gives the transmitted bits (R17, R110). -/
theorem sampleBits_symbolSamples {osf : Nat} {a : Int} (ha : 0 < a) {skip : Nat} (h : skip < osf) (bits : List Bool) :
    sampleBits osf skip (symbolSamples osf a bits) = bits := by
  induction bits with
  | nil => exact sampleBits_nil osf skip
  | cons b rest ih =>
    change sampleBits osf skip (List.replicate osf (if b then a else -a) ++ symbolSamples osf a rest) = b :: rest
    have hbit : bitOf (if b then a else -a) = b := by
      cases b <;> simp [bitOf, ha, ha.le]
    rw [sampleBits_symbol _ _ h, hbit, ih]

theorem symbolSamples_length (osf : Nat) (a : Int) (bits : List Bool) :
    (symbolSamples osf a bits).length = bits.length * osf := by
  simp [symbolSamples, List.length_flatMap]

/-! ### Decoding undoes the line code -/

/-- The six bits of a codeword pack to that codeword (R74). -/
theorem pack6_codewordBits (cw : Codeword) : pack6 (codewordBits cw) = cw := by
  revert cw
  decide

/-- The codeword of a nibble translates to that nibble (R75). -/
theorem lut36_codewordOf (n : Nibble) : lut36 (codewordOf n) = some n := by
  revert n
  decide

/-- The two nibbles of a byte, the earlier first (R56, R82). -/
def byteNibbles (b : Byte) : List Nibble :=
  [b.extractLsb' 4 4, b.extractLsb' 0 4]

@[simp] theorem byteNibbles_length (b : Byte) : (byteNibbles b).length = 2 := rfl

theorem pack8_byteNibbles (b : Byte) : pack8 (byteNibbles b) = [b] := by
  revert b
  decide

/-- Pairing undoes the cut of a frame into nibbles (R125). -/
theorem pack8_frameNibbles (frame : List Byte) : pack8 (frame.flatMap byteNibbles) = frame := by
  induction frame with
  | nil => rfl
  | cons b rest ih =>
    rw [List.flatMap_cons, pack8_append (by simp), pack8_byteNibbles, ih]
    rfl

theorem frameNibbles_length (frame : List Byte) : (frame.flatMap byteNibbles).length = frame.length * 2 := by
  simp [List.length_flatMap]

theorem translateAll_codewordOf (ns : List Nibble) : translateAll (ns.map codewordOf) = .ok ns :=
  translateAll_ok.2 (by simp [Function.comp_def, lut36_codewordOf])

/-- The bits of a byte are two whole groups. -/
theorem groupBits_byteBits (b : Byte) :
    groupBits (byteBits b) = ((byteNibbles b).map fun n => codewordBits (codewordOf n), []) := rfl

/-- The bits of a frame group into the codewords of its nibbles, and nothing is left over (R121, R122). -/
theorem groupBits_frameBits (frame : List Byte) :
    groupBits (frameBits frame) =
      ((frame.flatMap byteNibbles).map fun n => codewordBits (codewordOf n), []) := by
  induction frame with
  | nil => rfl
  | cons b rest ih =>
    rw [frameBits, List.flatMap_cons, ← frameBits, groupBits_append, groupBits_byteBits, List.nil_append, ih,
      List.flatMap_cons, List.map_append]

/-- An even number of codewords is translated at once (R123). -/
theorem holdBack_of_even {all : List Codeword} (h : all.length % 2 = 0) : holdBack all = (all, []) := by
  simp [holdBack, h]

/-- `DECODE36` of the bits of a frame returns the frame and carries nothing over (R120). -/
theorem decode36_frameBits (frame : List Byte) : decode36 [] [] (frameBits frame) = .ok (frame, [], []) := by
  have hcodewords : (groupBits (frameBits frame)).1.map pack6 = (frame.flatMap byteNibbles).map codewordOf := by
    simp [groupBits_frameBits, Function.comp_def, pack6_codewordBits]
  have hheld : holdBack ((frame.flatMap byteNibbles).map codewordOf) = ((frame.flatMap byteNibbles).map codewordOf, []) :=
    holdBack_of_even (by rw [List.length_map, frameNibbles_length, Nat.mul_mod_left])
  refine decode36_ok.2 ⟨frame.flatMap byteNibbles, ?_, ?_⟩ <;>
    simp only [List.nil_append, hcodewords, hheld]
  · exact translateAll_codewordOf _
  · rw [groupBits_frameBits, pack8_frameNibbles]

/-! ### The whole of FEED -/

/-- A whole frame behind an empty buffer completes in one `ASSEMBLE` (R130). -/
theorem assembleStage_wholeFrame {l : Byte} {rest : List Byte} (hlen : (l :: rest).length = calcSize l) {rx : Receiver}
    (hacc : rx.accumulatedBytes = []) (htfl : rx.targetFrameLength = 0) :
    assembleStage (l :: rest) rx =
      { rx with accumulatedBytes := l :: rest, targetFrameLength := calcSize l, frameComplete := true } := by
  have hreached : frameReached (calcSize l) (l :: rest).length = true :=
    frameReached_iff.2 ⟨by have := calcSize_range l; omega, hlen.ge⟩
  simp only [assembleStage, hacc, htfl, List.nil_append, latchLength_first, hreached, if_true,
    List.take_of_length_le hlen.le]

/-- From a new receiver, or after a frame, the offset is where `SYNC` points and the rest is empty (R102, R132). -/
theorem alignStages_betweenFrames {rx : Receiver} (h : rx = Receiver.reset ∨ rx.frameComplete = true) (p : Params)
    (chunk : List Sample) : alignStages p chunk rx = syncStage p chunk Receiver.reset := by
  rcases h with rfl | hc
  · exact alignStages_unsynchronized rfl rfl p chunk
  · exact alignStages_complete hc p chunk

/-- A whole number of symbols leaves the offset at the same place in the symbol (R112). -/
theorem retimeOffset_symbols {osf skip : Nat} (heven : osf % 2 = 0) (hskip : skip < osf) (n m : Nat) :
    retimeOffset (n + m * osf) ((n : Int) + skip) osf = skip := by
  rw [retimeOffset_eq heven, show (n : Int) + skip - ((n + m * osf : Nat) : Int) = skip - osf * m by push_cast; ring,
    Int.sub_mul_emod_self_left]
  exact Int.emod_eq_of_lt (by omega) (by omega)

/-- The last four stages on a whole frame, from an offset within its first symbol and with all other registers at reset: the frame
is complete and nothing is carried over. -/
theorem receiveStages_wholeFrame {p : Params} (heven : p.osf % 2 = 0) {a : Int} (ha : 0 < a) {l : Byte} {rest : List Byte}
    (hlen : (l :: rest).length = calcSize l) {skip : Nat} (hskip : skip < p.osf) (before : List Sample) :
    receiveStages p (before ++ symbolSamples p.osf a (frameBits (l :: rest)))
        { Receiver.reset with samplingOffset := (before.length : Int) + skip } =
      .ok { samplingOffset := skip, targetFrameLength := calcSize l, frameComplete := true,
            accumulatedBytes := l :: rest, spilledBits := [], spilledNibbles := [] } := by
  refine receiveStages_ok.2 ⟨(l :: rest, [], []), ?_, ?_⟩
  · change decode36 [] [] (sampleBits p.osf (before.length + skip) _) = _
    rw [sampleBits_skip, sampleBits_symbolSamples ha hskip, decode36_frameBits]
  · rw [assembleStage_wholeFrame hlen rfl rfl]
    simp only [spillStage, retimeStage, List.length_append, symbolSamples_length, retimeOffset_symbols heven hskip]

/-- Settles O46: `SYNC` points half a symbol deep into the first symbol of the frame, and from there the stages behind it undo the
transmitter. -/
theorem transmittedFrameIsReceived : Obligations.TransmittedFrameIsReceived := by
  intro s before a l rest chunk ha hlen hchunk hacc hrx hpeak
  obtain ⟨hosf, heven, _⟩ := hacc.2.1
  have hM : 0 < (template s.cfg).length := List.length_pos_iff.2 (template_ne_nil hacc.2.1)
  have hoffset : syncOffset chunk (template s.cfg) s.cfg.osf =
      ((before ++ (template s.cfg).map (a * ·)).length : Int) + ((s.cfg.osf / 2 - 1 : Nat) : Int) := by
    rw [syncOffset, hpeak, List.length_append, List.length_map]
    omega
  have hstages : feedStages s.cfg chunk s.rx =
      .ok { samplingOffset := (s.cfg.osf : Int) / 2 - 1, targetFrameLength := calcSize l, frameComplete := true,
            accumulatedBytes := l :: rest, spilledBits := [], spilledNibbles := [] } := by
    rw [feedStages, alignStages_betweenFrames hrx, syncStage, hoffset, hchunk,
      receiveStages_wholeFrame heven ha hlen (by omega),
      show ((s.cfg.osf / 2 - 1 : Nat) : Int) = (s.cfg.osf : Int) / 2 - 1 by omega]
  change feedCommand chunk s = _
  rw [feedCommand_accepted hacc, hstages]
  rfl

end Sys2Proof.Machine
end

section
/-! PROOFS. Timing recovery (`spec/41_timing_recovery.md` R110 to R112): the bits of `SAMPLE` by count and position, and the two
forms of `RETIME`. -/

namespace Sys2Proof.Machine

/-! ### The bits of `SAMPLE` (R110) -/

/-- `SAMPLE` on a chunk that it accepts returns its bits and writes nothing. -/
theorem execSample_accepted {chunk : List Sample} {s : State} (hf : s.fault = 0) (hv : s.cfg.Valid)
    (hc : ChunkOk s.cfg chunk) (hoff : 0 ≤ s.rx.samplingOffset) :
    execSample chunk s = .next (s.finish (some (.bits (sampleBits s.cfg.osf s.rx.samplingOffset.toNat chunk)))) := by
  rw [execSample, unlessFaulted_clear hf, whenBuilt_valid hv, whenInDomain_ok (by simpa [Instr.wellFormed] using hc.1),
    whenSamplesFit_fit hc.2, whenOffset_ok hoff, returnValue]

/-- The number of bits is `ceil((n − skip) / OSF)`, and 0 when the grid starts past the chunk. -/
theorem sampleBits_length {osf : Nat} (hosf : 0 < osf) : ∀ (skip : Nat) (chunk : List Sample),
    (sampleBits osf skip chunk).length = (chunk.length - skip + (osf - 1)) / osf
  | skip, [] => by
    have hnone : (osf - 1) / osf = 0 := Nat.div_eq_of_lt (by omega)
    simp [sampleBits_nil, hnone]
  | 0, x :: xs => by
    rw [sampleBits_zero, List.length_cons, sampleBits_length hosf (osf - 1) xs, List.length_cons,
      show xs.length + 1 - 0 + (osf - 1) = xs.length + osf by omega, Nat.add_div_right _ hosf]
    congr 1
    by_cases hlast : xs.length < osf
    · rw [Nat.div_eq_of_lt (by omega), Nat.div_eq_of_lt hlast]
    · rw [Nat.sub_add_cancel (by omega)]
  | skip + 1, x :: xs => by
    rw [sampleBits_succ, sampleBits_length hosf skip xs, List.length_cons, Nat.add_sub_add_right]

/-- Bit `i` is the decision on the sample at `skip + i×OSF`; both sides end at the same `i`. -/
theorem sampleBits_getElem? {osf : Nat} (hosf : 0 < osf) : ∀ (skip : Nat) (chunk : List Sample) (i : Nat),
    (sampleBits osf skip chunk)[i]? = chunk[skip + i * osf]?.map bitOf
  | skip, [], i => by simp [sampleBits_nil]
  | 0, x :: xs, 0 => by simp [sampleBits_zero]
  | 0, x :: xs, i + 1 => by
    have hnext : 0 + (i + 1) * osf = osf - 1 + i * osf + 1 := by
      rw [Nat.add_mul]
      omega
    rw [sampleBits_zero, List.getElem?_cons_succ, sampleBits_getElem? hosf (osf - 1) xs i, hnext, List.getElem?_cons_succ]
  | skip + 1, x :: xs, i => by
    rw [sampleBits_succ, sampleBits_getElem? hosf skip xs i, Nat.add_right_comm, List.getElem?_cons_succ]

/-- Settles O14: the bits are those of `sampleBits`, counted and read by position. -/
theorem sampleTakesOneBitEachPeriod : Obligations.SampleTakesOneBitEachPeriod := by
  intro s chunk hf hv hc hoff
  exact ⟨_, execSample_accepted hf hv hc hoff, sampleBits_length hv.1 _ chunk, fun i _ => sampleBits_getElem? hv.1 _ chunk i⟩

/-! ### The value of `RETIME` (R111, R112) -/

/-- `RETIME` on operands that it accepts writes the new offset and nothing else. -/
theorem execRetime_accepted {n : Nat} {s : State} (hf : s.fault = 0) (hv : s.cfg.Valid) (hn : 0 < n)
    (hoff : 0 ≤ s.rx.samplingOffset) :
    execRetime n s = .next ((s.setReceiver (retimeStage s.cfg n s.rx)).finish none) := by
  rw [execRetime, unlessFaulted_clear hf, whenBuilt_valid hv,
    whenInDomain_ok (i := .retime n) (decide_eq_true hn), whenOffset_ok hoff]

/-- Settles O15: the new offset is `retimeOffset`, which is the three lines by definition; the closed form is `retimeOffset_eq`. -/
theorem retimeContinuesTheGrid : Obligations.RetimeContinuesTheGrid := by
  refine ⟨fun s n hf hv hn hoff => ?_, fun n osf s _ heven => retimeOffset_eq heven n s⟩
  have ⟨hosf, heven, _⟩ := hv
  exact ⟨retimeOffset n s.rx.samplingOffset s.cfg.osf, execRetime_accepted hf hv hn hoff, rfl, retimeOffset_eq heven n _,
    retimeOffset_range hosf n _⟩

end Sys2Proof.Machine
end

section
/-! PROOFS. The line decoder (`spec/42_line_decoder.md` R120 to R126): each step of `DECODE36` by position, and `DECODE36` against
the codewords of the stream. -/

namespace Sys2Proof.Machine

/-! ### One group (R122) -/

theorem pack6_toNat (b0 b1 b2 b3 b4 b5 : Bool) :
    (pack6 [b0, b1, b2, b3, b4, b5]).toNat =
      32 * b0.toNat + 16 * b1.toNat + 8 * b2.toNat + 4 * b3.toNat + 2 * b4.toNat + b5.toNat := by
  revert b0 b1 b2 b3 b4 b5
  decide

/-- Settles O19: six bits are in the domain of `PACK6`, and its value is that of `pack6`. -/
theorem packSixIsMostSignificantFirst : Obligations.PackSixIsMostSignificantFirst := fun _ b0 b1 b2 b3 b4 b5 =>
  ⟨pack6 [b0, b1, b2, b3, b4, b5], rfl, pack6_toNat b0 b1 b2 b3 b4 b5⟩

/-! ### Pairs of nibbles (R125) -/

/-- Byte `i` is made of the nibbles `2i` and `2i + 1`. -/
theorem pack8_getD (ns : List Nibble) {i : Nat} (hlt : i < (pack8 ns).length) :
    (pack8 ns).getD i 0 = byteOfNibbles (ns.getD (2 * i) 0) (ns.getD (2 * i + 1) 0) := by
  induction ns using pack8.induct generalizing i with
  | case1 hi lo rest ih =>
    cases i with
    | zero => rfl
    | succ i => exact ih (Nat.lt_of_succ_lt_succ hlt)
  | case2 ns hshort =>
    rw [pack8] at hlt
    · simp at hlt
    · exact hshort

/-- Settles O20: the bytes are those of `pack8`, counted and read by position. -/
theorem packEightPutsTheEarlierNibbleHigh : Obligations.PackEightPutsTheEarlierNibbleHigh := by
  intro s nibbles heven
  refine ⟨pack8 nibbles, ?_, pack8_length nibbles, fun i hlt => ?_⟩
  · exact whenInDomain_ok (i := .pack8 nibbles) (decide_eq_true heven) _
  · rw [pack8_getD nibbles hlt, byteOfNibbles_toNat]

/-! ### The codewords of a stream by position (R121 to R123) -/

/-- The first six bits of a stream are its codeword 0. -/
theorem codewordAt_zero (b0 b1 b2 b3 b4 b5 : Bool) (rest : List Bool) :
    Spec.codewordAt (b0 :: b1 :: b2 :: b3 :: b4 :: b5 :: rest) 0 = pack6 [b0, b1, b2, b3, b4, b5] := by
  rw [← BitVec.setWidth_eq (pack6 _), ← BitVec.ofNat_toNat, pack6_toNat]
  rfl

/-- `groupBits` and `pack6` give the codewords that the positions of the stream give. -/
theorem groupBits_codewords (stream : List Bool) :
    (groupBits stream).1.map pack6 = (List.range (stream.length / 6)).map (Spec.codewordAt stream) := by
  induction stream using groupBits.induct with
  | case1 b0 b1 b2 b3 b4 b5 rest ih =>
    have hcount : (b0 :: b1 :: b2 :: b3 :: b4 :: b5 :: rest).length / 6 = rest.length / 6 + 1 :=
      Nat.add_div_right rest.length (by decide : 0 < 6)
    rw [groupBits, List.map_cons, ih, hcount, List.range_succ_eq_map, List.map_cons, codewordAt_zero, List.map_map]
    rfl
  | case2 rest hshort =>
    have hnone : (groupBits rest).1 = [] := by rw [groupBits]; exact hshort
    rw [← (groupBits_length rest).1, hnone]
    rfl

/-- The remainder of grouping is what lies past the last whole group (R121). -/
theorem groupBits_remainder (stream : List Bool) :
    (groupBits stream).2 = stream.drop (6 * (stream.length / 6)) := by
  induction stream using groupBits.induct with
  | case1 b0 b1 b2 b3 b4 b5 rest ih =>
    have hcount : 6 * ((b0 :: b1 :: b2 :: b3 :: b4 :: b5 :: rest).length / 6) = 6 * (rest.length / 6) + 6 := by
      simp only [List.length_cons]
      omega
    rw [groupBits, ih, hcount]
    rfl
  | case2 rest hshort =>
    have hrest : groupBits rest = ([], rest) := by rw [groupBits]; exact hshort
    rw [← (groupBits_length rest).1, hrest]
    rfl

/-- The codewords that `DECODE36` pairs: the one carried over, then those of the stream (R123). -/
theorem carried_append_groupBits (rx : Receiver) (bits : List Bool) :
    rx.spilledNibbles ++ (groupBits (rx.spilledBits ++ bits)).1.map pack6 = Spec.codewords rx bits := by
  rw [groupBits_codewords, Spec.codewords]

theorem translated_length (rx : Receiver) (bits : List Bool) :
    (Spec.translated rx bits).length = 2 * ((Spec.codewords rx bits).length / 2) := by
  rw [Spec.translated, List.length_take]
  omega

/-- The codewords that are translated stand at the same places as in the stream. -/
theorem translated_getD {rx : Receiver} {bits : List Bool} {j : Nat} (hj : j < (Spec.translated rx bits).length) :
    (Spec.translated rx bits).getD j 0 = (Spec.codewords rx bits).getD j 0 := by
  rw [translated_length] at hj
  rw [Spec.translated, List.getD_eq_getElem?_getD, List.getElem?_take_of_lt hj, ← List.getD_eq_getElem?_getD]

/-! ### Translation (R124) -/

/-- Nothing stops the translation of valid codewords. -/
theorem translateAll_of_valid {cws : List Codeword} (h : ∀ cw ∈ cws, lut36 cw ≠ none) :
    ∃ ns, translateAll cws = .ok ns := by
  cases ht : translateAll cws with
  | ok ns => exact ⟨ns, rfl⟩
  | error e =>
    obtain ⟨older, newer, rfl, _, he⟩ := translateAll_error.1 ht
    exact absurd he (h e (by simp))

/-- Nibble `j` is that of codeword `j`. -/
theorem translateAll_getD {cws : List Codeword} {ns : List Nibble} (h : translateAll cws = .ok ns) {j : Nat}
    (hj : j < cws.length) : lut36 (cws.getD j 0) = some (ns.getD j 0) := by
  have hj' : j < ns.length := translateAll_length h ▸ hj
  have hat := congrArg (·[j]?) (translateAll_ok.1 h)
  simpa [hj, hj'] using hat

/-! ### `DECODE36` as a whole (R120) -/

/-- `DECODE36` by the codewords of the stream: it raises nothing exactly when the codewords to translate have nibbles. -/
theorem decode36_ok_translated {rx : Receiver} {bits : List Bool} {d : Decoded} :
    decode36 rx.spilledBits rx.spilledNibbles bits = .ok d ↔
      ∃ ns, translateAll (Spec.translated rx bits) = .ok ns ∧
        d = (pack8 ns, (rx.spilledBits ++ bits).drop (6 * ((rx.spilledBits ++ bits).length / 6)),
          (Spec.codewords rx bits).drop (2 * ((Spec.codewords rx bits).length / 2))) := by
  rw [decode36_ok, carried_append_groupBits, holdBack_eq, groupBits_remainder]
  rfl

/-- It raises exactly with the oldest illegal codeword (R124, R164). -/
theorem decode36_error_translated {rx : Receiver} {bits : List Bool} {e : Codeword} :
    decode36 rx.spilledBits rx.spilledNibbles bits = .error e ↔
      ∃ older newer, Spec.translated rx bits = older ++ e :: newer ∧ (∀ x ∈ older, lut36 x ≠ none) ∧ lut36 e = none := by
  rw [decode36_error, carried_append_groupBits, holdBack_eq, translateAll_error]
  rfl

/-- Where every codeword to translate is valid, `DECODE36` returns one byte for each pair of codewords. -/
theorem decode36_of_valid {rx : Receiver} {bits : List Bool} (h : ∀ cw ∈ Spec.translated rx bits, lut36 cw ≠ none) :
    ∃ bytes : List Byte,
      decode36 rx.spilledBits rx.spilledNibbles bits =
        .ok (bytes, (rx.spilledBits ++ bits).drop (6 * ((rx.spilledBits ++ bits).length / 6)),
          (Spec.codewords rx bits).drop (2 * ((Spec.codewords rx bits).length / 2))) ∧
      bytes.length = (Spec.codewords rx bits).length / 2 ∧
      ∀ i, i < bytes.length → ∃ hi lo : Nibble,
        lut36 ((Spec.codewords rx bits).getD (2 * i) 0) = some hi ∧
        lut36 ((Spec.codewords rx bits).getD (2 * i + 1) 0) = some lo ∧
        (bytes.getD i 0).toNat = 16 * hi.toNat + lo.toNat := by
  obtain ⟨ns, hns⟩ := translateAll_of_valid h
  have hlen : (pack8 ns).length = (Spec.codewords rx bits).length / 2 := by
    rw [pack8_length, translateAll_length hns, translated_length]
    omega
  have hnibble : ∀ j, j < 2 * ((Spec.codewords rx bits).length / 2) →
      lut36 ((Spec.codewords rx bits).getD j 0) = some (ns.getD j 0) := fun j hj => by
    rw [← translated_length] at hj
    rw [← translated_getD hj, translateAll_getD hns hj]
  refine ⟨pack8 ns, decode36_ok_translated.2 ⟨ns, hns, rfl⟩, hlen, fun i hlt => ?_⟩
  exact ⟨ns.getD (2 * i) 0, ns.getD (2 * i + 1) 0, hnibble _ (by omega), hnibble _ (by omega),
    by rw [pack8_getD ns hlt, byteOfNibbles_toNat]⟩

/-- No bit is dropped or used twice (R120). -/
theorem decode36_balance {sb bits : List Bool} {sn : List Codeword} {d : Decoded} (h : decode36 sb sn bits = .ok d) :
    12 * d.1.length + 6 * d.2.2.length + d.2.1.length = 6 * sn.length + sb.length + bits.length := by
  obtain ⟨ns, hns, rfl⟩ := decode36_ok.1 h
  obtain ⟨hgroups, hleft⟩ := groupBits_length (sb ++ bits)
  have heven := holdBack_even (sn ++ (groupBits (sb ++ bits)).1.map pack6)
  have hall := congrArg List.length (holdBack_append (sn ++ (groupBits (sb ++ bits)).1.map pack6))
  simp only [List.length_append, List.length_map] at hall hgroups hleft
  simp only [pack8_length, translateAll_length hns]
  omega

/-- Two codewords of the table, from empty spill registers, are one byte (R126 a). -/
theorem decode36_codewordBits {cwA cwB : Codeword} {hi lo : Nibble} (ha : lut36 cwA = some hi) (hb : lut36 cwB = some lo) :
    decode36 [] [] (codewordBits cwA ++ codewordBits cwB) = .ok ([byteOfNibbles hi lo], [], []) := by
  have hgroups : groupBits (codewordBits cwA ++ codewordBits cwB) = ([codewordBits cwA, codewordBits cwB], []) := rfl
  have hheld : holdBack [cwA, cwB] = ([cwA, cwB], []) := holdBack_of_even (by simp)
  refine decode36_ok.2 ⟨[hi, lo], ?_, ?_⟩ <;>
    simp only [List.nil_append, hgroups, List.map_cons, List.map_nil, pack6_codewordBits, hheld]
  · exact translateAll_ok.2 (by simp [ha, hb])
  · rfl

/-! ### `DECODE36` run by itself -/

/-- `DECODE36` run by itself where it raises. -/
theorem execDecode36_error {bits : List Bool} {s : State} {cw : Codeword} (hf : s.fault = 0)
    (h : decode36 s.rx.spilledBits s.rx.spilledNibbles bits = .error cw) :
    execDecode36 bits s = .next (s.raise .invalidLineCode (zextCodeword cw)) := by
  rw [execDecode36, unlessFaulted_clear hf, h]
  rfl

/-- A `DECODE36` that returns bytes ran on a block without a fault and raised nothing. -/
theorem execDecode36_bytes {bits : List Bool} {s t : State} {bytes : List Byte} (h : execDecode36 bits s = .next t)
    (hbytes : t.result = some (.bytes bytes)) :
    s.fault = 0 ∧ ∃ spill, decode36 s.rx.spilledBits s.rx.spilledNibbles bits = .ok (bytes, spill) ∧
      t = (s.setReceiver (spillStage (bytes, spill) s.rx)).finish (some (.bytes bytes)) := by
  rcases execDecode36_next h with ⟨_, rfl⟩ | ⟨hf, ⟨bytes', spill⟩, hd, rfl⟩ | ⟨_, _, _, rfl⟩
  · simp at hbytes
  · obtain rfl : bytes' = bytes := by simpa using hbytes
    exact ⟨hf, spill, hd, rfl⟩
  · simp at hbytes

/-- Settles O21: the bytes and the spill registers are those of `decode36`. -/
theorem decodeGroupsPairsAndHoldsBack : Obligations.DecodeGroupsPairsAndHoldsBack := by
  intro s bits hf hvalid
  obtain ⟨bytes, hd, hlen, hpairs⟩ := decode36_of_valid hvalid
  exact ⟨bytes, execDecode36_ok hf hd, hlen, hpairs⟩

/-- Settles O22: a run that returns bytes raised nothing, and the counts are those of its steps. -/
theorem decodeAccountsForEveryBit : Obligations.DecodeAccountsForEveryBit := by
  intro s t bits bytes h hbytes
  obtain ⟨_, spill, hd, rfl⟩ := execDecode36_bytes h hbytes
  obtain ⟨hbits, hnibbles⟩ := decode36_carries_less hd
  exact ⟨hbits, hnibbles, decode36_balance hd⟩

/-- Settles O23: the codeword given is the one that `decode36` stops at. -/
theorem decodeRaisesOnTheOldestIllegalCodeword : Obligations.DecodeRaisesOnTheOldestIllegalCodeword := by
  intro s bits older newer cw hf htranslated holder hillegal
  exact execDecode36_error hf (decode36_error_translated.2 ⟨older, newer, htranslated, holder, hillegal⟩)

/-- Settles O24: each premise gives the entry of its codeword, and the spill registers are empty before and after. -/
theorem twoValidCodewordsDecodeToOneByte : Obligations.TwoValidCodewordsDecodeToOneByte := by
  intro s cwA cwB hi lo hf hsb hsn ha hb
  have entry : ∀ {cw : Codeword} {n : Nibble},
      exec (.lut36 cw) s = .next { s with outcome := some .done, result := some (.lutEntry (some n)) } →
        lut36 cw = some n := fun h => by simpa using congrArg State.result (next_inj.1 h)
  have hd := decode36_codewordBits (entry ha) (entry hb)
  rw [← hsb, ← hsn] at hd
  exact ⟨_, byteOfNibbles_toNat hi lo, execDecode36_ok hf hd⟩

/-- Settles O25: both calls raised nothing, and they join at the cut. -/
theorem decodeDoesNotSeeCallBoundaries : Obligations.DecodeDoesNotSeeCallBoundaries := by
  intro s t u first second bytes1 bytes2 hfirst hbytes1 hsecond hbytes2
  obtain ⟨hf, spill, hd, rfl⟩ := execDecode36_bytes hfirst hbytes1
  obtain ⟨_, spill', he, rfl⟩ := execDecode36_bytes hsecond hbytes2
  exact execDecode36_ok hf (decode36_append hd he)

end Sys2Proof.Machine
end

section
/-! PROOFS. The frame assembler (`spec/43_frame_assembler.md` R130 to R133): the length that `CALCSIZE` gives in closed form, and
what `ASSEMBLE` and `RESTART` answer on a block without a fault. -/

namespace Sys2Proof.Machine

/-! ### The length of a frame (R131, R133) -/

/-- The two floor terms of R131 together count 2 for each started block of 16 beyond 9, so they are one quotient. -/
theorem calcSize_eq (l : Byte) : calcSize l = l.toNat + 2 + 2 * ((l.toNat + 6) / 16) := by
  simp only [calcSize]
  split <;> omega

/-- The formula of R131 as the spec writes it, with the floor toward −∞. -/
theorem calcSize_floor (l : Byte) :
    (calcSize l : Int) = (l.toNat : Int) + 2 + Int.fdiv ((l.toNat : Int) - 9) 16 * 2 +
      (if Int.fmod ((l.toNat : Int) - 9) 16 ≠ 0 then 2 else 0) := by
  rw [Int.fdiv_eq_ediv_of_nonneg _ (by decide), Int.fmod_eq_emod_of_nonneg _ (by decide), calcSize_eq]
  split <;> omega

theorem calcSize_strictMono {l l' : Byte} (h : l.toNat < l'.toNat) : calcSize l < calcSize l' := by
  rw [calcSize_eq, calcSize_eq]
  omega

/-- Settles O27: the value is `calcSize`, which is the formula. -/
theorem calcsizeFollowsTheFormula : Obligations.CalcsizeFollowsTheFormula :=
  ⟨fun _ l => ⟨calcSize l, rfl, calcSize_floor l, calcSize_range l⟩, fun _ _ => calcSize_strictMono⟩

/-- Settles O28: from `L = 10` on the quotient of `calcSize_eq` counts the blocks of the layout, and up to `L = 9` it is 0. -/
theorem receiverStopsOneByteEarly : Obligations.ReceiverStopsOneByteEarly := by
  intro l
  have heq := calcSize_eq l
  exact ⟨fun _ => by omega, fun _ => by omega⟩

/-! ### `ASSEMBLE` and `RESTART` run by themselves -/

/-- The receiver after `ASSEMBLE` is the one before it but for the three frame registers. -/
theorem assembleStage_eq (bytes : List Byte) (rx : Receiver) :
    assembleStage bytes rx =
      { rx with
        accumulatedBytes := (assembleStage bytes rx).accumulatedBytes
        targetFrameLength := latchLength rx.targetFrameLength (rx.accumulatedBytes ++ bytes)
        frameComplete := (assembleStage bytes rx).frameComplete } := by
  obtain ⟨hoff, hbits, hnibbles, htfl⟩ := assembleStage_frame bytes rx
  rw [← hoff, ← hbits, ← hnibbles, ← htfl]

theorem execAssemble_clear {s : State} (hf : s.fault = 0) (bytes : List Byte) :
    execAssemble bytes s = .next ((s.setReceiver (assembleStage bytes s.rx)).finish none) :=
  unlessFaulted_clear hf _

theorem execRestart_clear {s : State} (hf : s.fault = 0) :
    execRestart s = .next ((s.setReceiver Receiver.reset).finish none) :=
  unlessFaulted_clear hf _

/-- An unknown length is latched from the first byte there is. -/
theorem latchLength_of_head {l : Byte} {acc : List Byte} (h : l ∈ acc.head?) : latchLength 0 acc = calcSize l := by
  obtain ⟨rest, rfl⟩ := List.head?_eq_some_iff.1 h
  exact latchLength_first l rest

/-- Settles O29: the length is the one `latchLength` gives, and the two cases of `ASSEMBLE` exclude each other. -/
theorem assembleLatchesAndCompletes : Obligations.AssembleLatchesAndCompletes := by
  intro s bytes hf
  refine ⟨latchLength s.rx.targetFrameLength (s.rx.accumulatedBytes ++ bytes), (assembleStage bytes s.rx).accumulatedBytes,
    (assembleStage bytes s.rx).frameComplete, ?_, fun hknown => latchLength_known hknown _, fun h0 l hl => ?_,
    fun h0 hnil => latchLength_eq_zero.2 ⟨h0, hnil⟩, fun hne hle => ?_, fun hshort => ?_⟩
  · rw [← assembleStage_eq]
    exact execAssemble_clear hf bytes
  · rw [h0]
    exact latchLength_of_head hl
  · rcases assembleStage_cases bytes s.rx with ⟨_, _, hfc, hacc⟩ | ⟨hshort, _⟩
    · exact ⟨hacc, hfc⟩
    · omega
  · rcases assembleStage_cases bytes s.rx with ⟨hne, hle, _⟩ | ⟨_, hfc, hacc⟩
    · omega
    · exact ⟨hacc, hfc⟩

/-- Settles O31: the receiver is left at its reset values, which are the six that R132 lists. -/
theorem restartClearsTheReceiver : Obligations.RestartClearsTheReceiver := fun _ hf =>
  ⟨execRestart_clear hf, execRestart_clear hf⟩

end Sys2Proof.Machine
end

section
/-! PROOFS. The telegram parser run by itself (`spec/44_telegram_parser.md` R141 to R144): the export byte by byte, the functions next to
their commands, and the payload of a frame that the receiver completed. -/

namespace Sys2Proof.Machine

/-! ### `STRIP` (R142) -/

/-- Settles O32: `STRIP` takes the bytes that the layout gives by position. -/
theorem stripTakesTheDataBytes : Obligations.StripTakesTheDataBytes := by
  intro s raw l hlen
  have hdom : (Instr.strip raw l).wellFormed = true := decide_eq_true hlen
  calc exec (.strip raw l) s
    _ = returnValue s (.bytes (strip raw l)) := whenInDomain_ok hdom _
    _ = returnValue s (.bytes (Sys2Proof.Spec.data raw l)) := by rw [strip_eq_data]

/-! ### The export (R79, R143) -/

/-- `SERIALIZE` while the telegram registers hold `t`. -/
theorem execSerialize_stored {s : State} {t : Telegram} (hf : s.fault = 0) (ht : s.telegram = some t) :
    execSerialize s = returnValue s (.bytes (noCrcExport t)) := by
  rw [execSerialize, unlessFaulted_clear hf, ht]

/-- The two bytes of a 16-bit field are its value to the base 256, the less significant first (R58). -/
theorem halfBytes_toNat (h : Half) :
    ((halfBytes h).getD 0 0).toNat + 256 * ((halfBytes h).getD 1 0).toNat = h.toNat := by
  have hlt := h.isLt
  simp only [halfBytes, List.getD_cons_zero, List.getD_cons_succ, BitVec.extractLsb'_toNat, Nat.shiftRight_eq_div_pow]
  omega

/-- Settles O35: the bytes are those of `noCrcExport`, and its layout gives each of them. -/
theorem serializeEmitsTheExport : Obligations.SerializeEmitsTheExport := fun _ t hf ht =>
  ⟨noCrcExport t, execSerialize_stored hf ht, noCrcExport_length t, rfl, halfBytes_toNat t.manufacturerId, rfl, rfl, rfl⟩

/-! ### `PARSE` and the functions (R141, R143, R152, R153) -/

theorem parseCommand_short {raw : List Byte} {s : State} (hacc : ParseAccepted raw s) (hlen : raw.length ≤ 12) :
    parseCommand raw s = .next (s.raise .truncatedFrame (BitVec.ofNat 8 raw.length)) := by
  rw [parseCommand_accepted hacc, parseRaw_short hlen]

theorem parseCommand_ok {raw : List Byte} {s : State} {t : Telegram} (hacc : ParseAccepted raw s)
    (hp : parseRaw raw = .ok t) : parseCommand raw s = .next ((s.setTelegram t).finish none) := by
  rw [parseCommand_accepted hacc, hp]

theorem execParseFn_short {raw : List Byte} {s : State} (hf : s.fault = 0) (hlen : raw.length ≤ 12) :
    execParseFn raw s = .next (s.raise .truncatedFrame (BitVec.ofNat 8 raw.length)) := by
  rw [execParseFn, unlessFaulted_clear hf, parseRaw_short hlen]
  rfl

theorem execParseFn_ok {raw : List Byte} {s : State} {t : Telegram} (hf : s.fault = 0) (hp : parseRaw raw = .ok t) :
    execParseFn raw s = returnValue s (.telegram t) := by
  rw [execParseFn, unlessFaulted_clear hf, hp]

/-- Settles O36: `parse` and `PARSE` both end as `parseRaw` says, `serialize` and `SERIALIZE` both return `noCrcExport`. -/
theorem functionsAnswerAsTheirCommands : Obligations.FunctionsAnswerAsTheirCommands := by
  refine ⟨fun s raw hacc hlen => ?_, fun s raw hacc hlen => ?_, fun s t hf hpay => ?_⟩
  · obtain ⟨t, hp⟩ := parseRaw_long hlen
    exact ⟨t, parseCommand_ok hacc hp, execParseFn_ok hacc.1 hp⟩
  · exact (execParseFn_short hacc.1 hlen).trans (parseCommand_short hacc hlen).symm
  · have hdom : (Instr.serializeFn t).wellFormed = true := decide_eq_true hpay
    have hstored : execSerialize { s with telegram := some t } = _ := execSerialize_stored hf rfl
    exact ⟨noCrcExport t, whenInDomain_ok hdom _, hstored⟩

/-! ### The payload of a completed frame (R144) -/

/-- A reading that has a value below `m` and none from there on keeps the first `m` of a range. -/
theorem filterMap_range_length {α : Type} {f : Nat → Option α} {m n : Nat} (h : ∀ i < n, (f i).isSome ↔ i < m) :
    ((List.range n).filterMap f).length = min n m := by
  induction n with
  | zero => simp
  | succ n ih =>
    have hn := h n n.lt_succ_self
    rw [List.range_succ, List.filterMap_append, List.length_append, ih fun i hi => h i (by omega)]
    cases hf : f n with
    | none =>
      have hge : m ≤ n := by simpa [hf] using hn
      rw [List.filterMap_cons_none hf, List.filterMap_nil, List.length_nil]
      omega
    | some a =>
      have hlt : n < m := by simpa [hf] using hn
      rw [List.filterMap_cons_some hf, List.filterMap_nil, List.length_singleton]
      omega

/-- Of the data bytes that the layout asks for, byte `i` lies inside a frame of the length that the receiver gives it exactly when
`i < L − 9`; the others are those of a phantom block. -/
theorem dataPosition_lt_calcSize {l : Byte} (h : 10 ≤ l.toNat) {i : Nat} (hi : i < Sys2Proof.Spec.dataBytes l) :
    12 + 18 * (i / 16) + i % 16 < calcSize l ↔ i < l.toNat - 9 := by
  rw [Sys2Proof.Spec.dataBytes, if_neg (by omega)] at hi
  rw [calcSize_eq]
  split at hi <;> omega

theorem dataBytes_ge (l : Byte) : l.toNat - 9 ≤ Sys2Proof.Spec.dataBytes l := by
  unfold Sys2Proof.Spec.dataBytes
  split_ifs <;> omega

theorem strip_length_of_calcSize {raw : List Byte} {l : Byte} (hlen : raw.length = calcSize l) (h : 10 ≤ l.toNat) :
    (strip raw l).length = l.toNat - 9 := by
  have hthere i (hi : i < Sys2Proof.Spec.dataBytes l) :
      raw[12 + 18 * (i / 16) + i % 16]?.isSome ↔ i < l.toNat - 9 := by
    simp [← dataPosition_lt_calcSize h hi, ← hlen]
  rw [strip_eq_data, Sys2Proof.Spec.data, filterMap_range_length hthere, min_eq_right (dataBytes_ge l)]

/-- Settles O37: up to `L = 9` the frame has at most 11 bytes, and from `L = 10` on it holds its `L − 9` data bytes, of which the
first is `controlInfo`. -/
theorem receivedFrameHasThePayloadItsLengthSays : Obligations.ReceivedFrameHasThePayloadItsLengthSays := by
  intro s l rest hacc hlen
  have hsize := calcSize_eq l
  refine ⟨fun hl => ?_, fun hl => ?_⟩
  · have hshort : (l :: rest).length ≤ 11 := by omega
    refine ⟨hshort, _, parseCommand_short hacc (by omega), rfl, ?_⟩
    exact Nat.mod_eq_of_lt (by omega)
  · have hstrip := strip_length_of_calcSize hlen hl
    obtain ⟨tel, hp⟩ := parseRaw_long (by omega : 13 ≤ (l :: rest).length)
    refine ⟨hstrip, _, tel, parseCommand_ok hacc hp, hacc.1, rfl, ?_⟩
    calc tel.payload.length
      _ = ((strip (l :: rest) l).drop 1).length := congrArg List.length (parseRaw_ok hp).2
      _ = l.toNat - 10 := by rw [List.length_drop, hstrip]; omega

end Sys2Proof.Machine
end

section
/-! PROOFS. The host commands (`spec/45_host_commands.md` R150 to R155): when a command is refused, `FEED` next to its stages run
one at a time, and the registers that each operation writes. -/

namespace Sys2Proof.Machine

/-! ### Refusal (R155) -/

/-- Every host command but `RESET` tests for a fault first, so a held block turns it away (R155 a). -/
theorem exec_held {s : State} (hf : s.fault ≠ 0) {i : Instr}
    (hi : (∃ c, i = .feed c) ∨ (∃ r, i = .parse r) ∨ i = .serialize ∨ i = .nopfeed ∨ i = .parseframe) :
    exec i s = .next s.turnAway := by
  rcases hi with ⟨c, rfl⟩ | ⟨r, rfl⟩ | rfl | rfl | rfl <;> exact unlessFaulted_held hf _

/-- What is refused on a block without a fault is refused on a held one too. -/
theorem unlessFaulted_turnAway (s : State) : unlessFaulted s (.next s.turnAway) = .next s.turnAway :=
  ite_self _

theorem feedCommand_overlong {s : State} {m : Nat} {chunk : List Sample} (hm : s.cfg.chunkMax = some m)
    (hlong : m < chunk.length) : feedCommand chunk s = .next s.turnAway := by
  rw [feedCommand, hm, unlessOverlong_long hlong, unlessFaulted_turnAway]

theorem parseCommand_overlong {s : State} {m : Nat} {raw : List Byte} (hm : s.cfg.rawMax = some m)
    (hlong : m < raw.length) : parseCommand raw s = .next s.turnAway := by
  rw [parseCommand, hm, unlessOverlong_long hlong, unlessFaulted_turnAway]

theorem execSerialize_empty {s : State} (ht : s.telegram = none) : execSerialize s = .next s.turnAway := by
  rw [execSerialize, ht]
  exact unlessFaulted_turnAway s

/-- Settles O38: one clause for each reason to refuse. -/
theorem heldOrOverlongCommandIsRefused : Obligations.HeldOrOverlongCommandIsRefused := fun _ =>
  ⟨fun hf _ hi => exec_held hf hi, fun _ _ hm hlong => feedCommand_overlong hm hlong,
    fun _ _ hm hlong => parseCommand_overlong hm hlong, execSerialize_empty⟩

/-! ### `RESET` and the empty `FEED` (R151, R154) -/

/-- Settles O2: the reset values are those of `clearAll`; a command code other than that of `RESET` decodes to a command that a
held block turns away. -/
theorem resetRestoresEveryRegister : Obligations.ResetRestoresEveryRegister := by
  refine fun s => ⟨rfl, rfl, fun hf cmd o i hd hcmd => ?_⟩
  rcases decode_command_ok.1 hd with ⟨-, c, -, rfl⟩ | ⟨-, r, -, rfl⟩ | ⟨-, -, rfl⟩ | ⟨rfl, -⟩
  · exact ⟨_, exec_held hf (.inl ⟨c, rfl⟩), rfl⟩
  · exact ⟨_, exec_held hf (.inr (.inl ⟨r, rfl⟩)), rfl⟩
  · exact ⟨_, exec_held hf (.inr (.inr (.inl rfl))), rfl⟩
  · exact absurd rfl hcmd

/-- The empty chunk fits every bound, and its stages never run. -/
theorem feedCommand_nil {s : State} (hf : s.fault = 0) : feedCommand [] s = .next (s.finish none) := by
  have hfits : ∀ m ∈ s.cfg.chunkMax, ([] : List Sample).length ≤ m := fun m _ => m.zero_le
  rw [feedCommand, unlessFaulted_clear hf, unlessOverlong_fits hfits, if_pos rfl]

/-- Settles O39: both names run `FEED` on the empty chunk. -/
theorem emptyFeedIsDoneAndWritesNothing : Obligations.EmptyFeedIsDoneAndWritesNothing := fun _ hf =>
  ⟨feedCommand_nil hf, feedCommand_nil hf⟩

/-! ### `FEED` and its stages run one at a time (R151) -/

/-- `FEED` commits what its stages leave. -/
theorem feedCommand_of_ok {chunk : List Sample} {s : State} (hacc : FeedAccepted chunk s) {rx : Receiver}
    (h : feedStages s.cfg chunk s.rx = .ok rx) : feedCommand chunk s = .next ((s.setReceiver rx).finish none) := by
  rw [feedCommand_accepted hacc, h]

/-- `FEED` enters the fault that its stages stop with and commits nothing (R150). -/
theorem feedCommand_of_error {chunk : List Sample} {s : State} (hacc : FeedAccepted chunk s) {cw : Codeword}
    (h : feedStages s.cfg chunk s.rx = .error cw) :
    feedCommand chunk s = .next (s.raise .invalidLineCode (zextCodeword cw)) := by
  rw [feedCommand_accepted hacc, h]

/-- The first stage of `FEED` as an operation: `RESTART` if a frame is complete, else nothing. -/
theorem restart_as_operation {s : State} (hf : s.fault = 0) :
    ∃ s1 : State, (if s.rx.frameComplete = true then exec .restart s = .next s1 else s1 = s) ∧
      s1.fault = 0 ∧ s1.cfg = s.cfg ∧ s1.rx = if s.rx.frameComplete then restartStage s.rx else s.rx := by
  by_cases hc : s.rx.frameComplete = true
  · simp only [if_pos hc]
    exact ⟨_, execRestart_clear hf, hf, rfl, rfl⟩
  · simp only [if_neg hc]
    exact ⟨s, rfl, hf, rfl, rfl⟩

/-- The second stage of `FEED` as an operation: `SYNC` if the offset is −1, else nothing. -/
theorem sync_as_operation {s : State} (hf : s.fault = 0) (hv : s.cfg.Valid) {chunk : List Sample}
    (hc : ChunkOk s.cfg chunk) :
    ∃ s2 : State, (if s.rx.samplingOffset = -1 then exec (.sync chunk) s = .next s2 else s2 = s) ∧
      s2.fault = 0 ∧ s2.cfg = s.cfg ∧
      s2.rx = if s.rx.synchronized then s.rx else syncStage s.cfg chunk s.rx := by
  by_cases hs : s.rx.samplingOffset = -1
  · have hsync : ¬ s.rx.synchronized = true := fun h => (synchronized_iff s.rx).1 h hs
    simp only [if_pos hs, if_neg hsync]
    exact ⟨_, execSync_accepted hf hv hc, hf, rfl, rfl⟩
  · simp only [if_neg hs, if_pos ((synchronized_iff s.rx).2 hs)]
    exact ⟨s, rfl, hf, rfl, rfl⟩

/-- Both together leave the receiver that `SAMPLE` starts from inside `FEED`. -/
theorem alignStages_as_operations {s : State} {chunk : List Sample} (hacc : FeedAccepted chunk s) :
    ∃ s1 s2 : State, (if s.rx.frameComplete = true then exec .restart s = .next s1 else s1 = s) ∧
      (if s1.rx.samplingOffset = -1 then exec (.sync chunk) s1 = .next s2 else s2 = s1) ∧
      s2.fault = 0 ∧ s2.cfg = s.cfg ∧ s2.rx = alignStages s.cfg chunk s.rx := by
  obtain ⟨hf, hv, hc, -⟩ := hacc
  obtain ⟨s1, hrestart, hf1, hcfg1, hrx1⟩ := restart_as_operation hf
  rw [← hcfg1] at hv hc
  obtain ⟨s2, hsync, hf2, hcfg2, hrx2⟩ := sync_as_operation hf1 hv hc
  refine ⟨s1, s2, hrestart, hsync, hf2, hcfg2.trans hcfg1, ?_⟩
  rw [hrx2, hcfg1, hrx1, alignStages]

/-- The third and fourth stage of `FEED` as operations: `SAMPLE` returns the bits and `RETIME` moves the offset behind them. -/
theorem sample_retime_as_operations {s : State} (hf : s.fault = 0) (hv : s.cfg.Valid) {chunk : List Sample}
    (hc : ChunkOk s.cfg chunk) (hoff : 0 ≤ s.rx.samplingOffset) :
    ∃ s3 s4 : State, exec (.sample chunk) s = .next s3 ∧
      s3.result = some (.bits (sampleBits s.cfg.osf s.rx.samplingOffset.toNat chunk)) ∧
      exec (.retime chunk.length) s3 = .next s4 ∧ s4.fault = 0 ∧ s4.rx = retimeStage s.cfg chunk.length s.rx := by
  have hretime := execRetime_accepted
    (s := s.finish (some (.bits (sampleBits s.cfg.osf s.rx.samplingOffset.toNat chunk)))) hf hv (List.length_pos_iff.2 hc.1) hoff
  exact ⟨_, _, execSample_accepted hf hv hc hoff, rfl, hretime, hf, rfl⟩

/-- The last four stages of `FEED` as operations, from a receiver that `SAMPLE` accepts: they end in the receiver that `FEED`
commits, or `DECODE36` raises with the codeword that `FEED` raises with. -/
theorem receiveStages_as_operations {s : State} (hf : s.fault = 0) (hv : s.cfg.Valid) {chunk : List Sample}
    (hc : ChunkOk s.cfg chunk) (hoff : 0 ≤ s.rx.samplingOffset) :
    ∃ (s3 s4 s5 : State) (bits : List Bool),
      exec (.sample chunk) s = .next s3 ∧ s3.result = some (.bits bits) ∧
      exec (.retime chunk.length) s3 = .next s4 ∧
      exec (.decode36 bits) s4 = .next s5 ∧
      ((∃ (bytes : List Byte) (s6 : State),
          s5.result = some (.bytes bytes) ∧ exec (.assemble bytes) s5 = .next s6 ∧
          receiveStages s.cfg chunk s.rx = .ok s6.rx) ∨
       (∃ cw : Codeword, s5 = s4.raise .invalidLineCode (zextCodeword cw) ∧
          receiveStages s.cfg chunk s.rx = .error cw)) := by
  obtain ⟨s3, s4, hsample, hbits, hretime, hf4, hrx4⟩ := sample_retime_as_operations hf hv hc hoff
  have ⟨hsb, hsn⟩ : s4.rx.spilledBits = s.rx.spilledBits ∧ s4.rx.spilledNibbles = s.rx.spilledNibbles := by simp [hrx4]
  cases hr : receiveStages s.cfg chunk s.rx with
  | ok rx =>
    obtain ⟨d, hd, rfl⟩ := receiveStages_ok.1 hr
    rw [← hsb, ← hsn] at hd
    have hassemble : exec (.assemble d.1) _ = _ :=
      execAssemble_clear (s := (s4.setReceiver (spillStage d s4.rx)).finish (some (.bytes d.1))) hf4 d.1
    refine ⟨s3, s4, _, _, hsample, hbits, hretime, execDecode36_ok hf4 hd, .inl ⟨d.1, _, rfl, hassemble, ?_⟩⟩
    rw [← hrx4]
    rfl
  | error cw =>
    have hd := receiveStages_error.1 hr
    rw [← hsb, ← hsn] at hd
    exact ⟨s3, s4, _, _, hsample, hbits, hretime, execDecode36_error hf4 hd, .inr ⟨cw, rfl, rfl⟩⟩

/-- Settles O40: the stages run by themselves write what they write inside `FEED`, which commits or raises as `DECODE36`
answers. -/
theorem feedIsItsStagesInOrder : Obligations.FeedIsItsStagesInOrder := by
  intro s chunk hacc
  have ⟨_, hv, hc, _, hoff⟩ := hacc
  obtain ⟨s1, s2, hrestart, hsync, hf2, hcfg, hrx⟩ := alignStages_as_operations hacc
  have hoff2 : 0 ≤ s2.rx.samplingOffset := hrx ▸ alignStages_offset_nonneg hoff s.cfg chunk
  rw [← hcfg] at hv hc
  obtain ⟨s3, s4, s5, bits, hsample, hbits, hretime, hdecode, hend⟩ := receiveStages_as_operations hf2 hv hc hoff2
  refine ⟨s1, s2, s3, s4, s5, bits, hrestart, hsync, hsample, hbits, hretime, hdecode, ?_⟩
  rw [hcfg, hrx] at hend
  rcases hend with ⟨bytes, s6, hbytes, hassemble, hstages⟩ | ⟨cw, rfl, hstages⟩
  · exact .inl ⟨bytes, s6, hbytes, hassemble, feedCommand_of_ok hacc hstages⟩
  · exact .inr ⟨rfl, feedCommand_of_error hacc hstages⟩

/-- The frame registers that `ASSEMBLE` leaves where no frame was complete: `frameComplete` says that the length is known and
reached, and the bytes are cut only then (R130). -/
theorem assembleStage_open {rx : Receiver} (hc : rx.frameComplete = false) (bytes : List Byte) :
    ((assembleStage bytes rx).frameComplete = true ↔ (assembleStage bytes rx).targetFrameLength ≠ 0 ∧
      (assembleStage bytes rx).targetFrameLength ≤ (rx.accumulatedBytes ++ bytes).length) ∧
    (assembleStage bytes rx).accumulatedBytes = if (assembleStage bytes rx).frameComplete = true
      then (rx.accumulatedBytes ++ bytes).take (assembleStage bytes rx).targetFrameLength
      else rx.accumulatedBytes ++ bytes := by
  obtain ⟨-, -, -, htfl⟩ := assembleStage_frame bytes rx
  rw [htfl]
  rcases assembleStage_cases bytes rx with ⟨hne, hle, hfc, hacc⟩ | ⟨hshort, hfc, hacc⟩
  · exact ⟨iff_of_true hfc ⟨hne, hle⟩, by rw [hacc, if_pos hfc]⟩
  · have hopen : ¬ (assembleStage bytes rx).frameComplete = true := by simp [hfc, hc]
    exact ⟨iff_of_false hopen (by omega), by rw [hacc, if_neg hopen]⟩

/-- Settles O41: inside a frame `FEED` is its last four stages, `DECODE36` does not raise on valid codewords, and each register is
read off the stage that writes it. -/
theorem feedCompletesOnValidCode : Obligations.FeedCompletesOnValidCode := by
  rintro s chunk bits hacc hoff hc rfl hvalid
  obtain ⟨bytes, hd, hlen, hpairs⟩ := decode36_of_valid hvalid
  have ⟨_, heven, _⟩ := hacc.2.1
  have hstages := (feedStages_inFrame hc hoff s.cfg chunk).trans (receiveStages_ok.2 ⟨_, hd, rfl⟩)
  have hfeed := feedCommand_of_ok hacc hstages
  obtain ⟨hretimed, hbits, hnibbles, htfl⟩ := assembleStage_frame bytes (spillStage _ (retimeStage s.cfg chunk.length s.rx))
  obtain ⟨hfc, hacc'⟩ := assembleStage_open (rx := spillStage _ (retimeStage s.cfg chunk.length s.rx)) hc bytes
  exact ⟨_, hfeed, hretimed.trans (retimeOffset_eq heven chunk.length s.rx.samplingOffset), hbits, hnibbles, bytes, hlen,
    hpairs, htfl, hfc, hacc'⟩

/-- Settles O42: a `FEED` that is done ran its stages, and `RETIME` put the offset there. -/
theorem feedLeavesTheOffsetInOnePeriod : Obligations.FeedLeavesTheOffsetInOnePeriod := by
  intro s t chunk hne h hdone
  obtain ⟨-, ⟨hosf, _⟩, -, rx, hstages, rfl⟩ := feedCommand_done hne h hdone
  exact receiveStages_offset_range hosf hstages

/-! ### Operations that write at most the fault registers (R150, R163) -/

/-- `t` has every register of `s` but for the two fault registers: at most these and the outcome and result outputs differ. -/
def SameButFault (s t : State) : Prop :=
  t = { s with fault := t.fault, faultInfo := t.faultInfo, outcome := t.outcome, result := t.result }

theorem SameRegisters.sameButFault {s t : State} (h : SameRegisters s t) : SameButFault s t := by
  rw [h]
  rfl

theorem SameButFault.rx_eq {s t : State} (h : SameButFault s t) : t.rx = s.rx := by
  rw [h]

theorem translateCodeword_sameButFault {cw : Codeword} {s t : State} (h : translateCodeword cw s = .next t) :
    SameButFault s t := by
  rcases translateCodeword_next h with ⟨_, rfl⟩ | ⟨_, _, _, rfl⟩ | ⟨_, _, rfl⟩ <;> rfl

theorem execParseFn_sameButFault {raw : List Byte} {s t : State} (h : execParseFn raw s = .next t) :
    SameButFault s t := by
  rcases execParseFn_next h with ⟨_, rfl⟩ | ⟨_, _, rfl⟩ | ⟨_, _, _, rfl⟩ <;> rfl

theorem lineWord_sameButFault {i : Instr} {cw : Codeword} (hi : encode i = some (.lineWord cw)) {s t : State}
    (h : exec i s = .next t) : SameButFault s t :=
  translateCodeword_sameButFault ((exec_lineWord hi s).symm.trans h)

/-- Settles O50: a row of the line code is a `TRANSLATE`, and `TRANSLATE` and `parse` are held, return a value or raise. -/
theorem translationsChangeAtMostTheFaultRegisters : Obligations.TranslationsChangeAtMostTheFaultRegisters := by
  rintro i s t (⟨w, rfl⟩ | ⟨r, rfl⟩ | ⟨w, hw⟩) h
  · exact translateCodeword_sameButFault h
  · exact execParseFn_sameButFault h
  · exact lineWord_sameButFault hw h

/-! ### Who writes the receiver (R29, R34, R152, R153) -/

/-- `PARSE` writes the telegram and the fault registers only (R152). -/
theorem parseCommand_rx {raw : List Byte} {s t : State} (h : parseCommand raw s = .next t) : t.rx = s.rx := by
  rcases parseCommand_next h with rfl | ⟨_, _, rfl⟩ | ⟨_, _, _, rfl⟩ <;> rfl

/-- The instructions that write no receiver register: all but `FEED`, five of its stages and `RESET`. -/
theorem exec_rx {i : Instr} {s t : State} (h : exec i s = .next t) (hfeed : ∀ c, i ≠ .feed c) (hreset : i ≠ .reset)
    (hrestart : i ≠ .restart) (hsync : ∀ c, i ≠ .sync c) (hretime : ∀ n, i ≠ .retime n) (hdecode : ∀ b, i ≠ .decode36 b)
    (hassemble : ∀ b, i ≠ .assemble b) : t.rx = s.rx := by
  have same (hs : SameRegisters s t) : t.rx = s.rx := hs.sameButFault.rx_eq
  cases i with
  | feed chunk => exact absurd rfl (hfeed chunk)
  | reset => exact absurd rfl hreset
  | restart => exact absurd rfl hrestart
  | sync chunk => exact absurd rfl (hsync chunk)
  | retime n => exact absurd rfl (hretime n)
  | decode36 bits => exact absurd rfl (hdecode bits)
  | assemble bytes => exact absurd rfl (hassemble bytes)
  | parse raw => exact parseCommand_rx h
  | parseframe => exact parseCommand_rx h
  | serialize => exact same (execSerialize_sameRegisters h)
  | nopfeed => exact same (execNopfeed_sameRegisters h)
  | sample chunk => exact same (execSample_sameRegisters h)
  | pack6 group => exact same (.of_inDomain h)
  | translate cw => exact (translateCodeword_sameButFault h).rx_eq
  | pack8 nibbles => exact same (.of_inDomain h)
  | genpreamble bits osf => exact same (.of_inDomain h)
  | xcorr chunk tmpl => exact same (.of_inDomain h)
  | lut36 cw => exact same (.of_returnValue h)
  | calcsize l => exact same (.of_returnValue h)
  | parseFn raw => exact (execParseFn_sameButFault h).rx_eq
  | strip raw l => exact same (.of_inDomain h)
  | serializeFn tel => exact same (.of_inDomain h)
  | _ => exact (lineWord_sameButFault rfl h).rx_eq

/-- Settles O52: by what each stage can answer; what is no stage, no `FEED` and no `RESET` is `exec_rx`. -/
theorem eachStageWritesItsOwnRegisters : Obligations.EachStageWritesItsOwnRegisters := by
  refine fun i s t h => ⟨exec_rx h, ?_, ?_, ?_⟩
  · rintro (⟨c, rfl⟩ | ⟨n, rfl⟩)
    · rcases execSync_next h with ⟨_, rfl⟩ | ⟨_, _, _, _, rfl⟩ <;> rfl
    · rcases execRetime_next h with ⟨_, rfl⟩ | ⟨_, _, _, _, rfl⟩ <;> rfl
  · rintro ⟨b, rfl⟩
    rcases execDecode36_next h with ⟨_, rfl⟩ | ⟨_, _, _, rfl⟩ | ⟨_, _, _, rfl⟩ <;> rfl
  · rintro ⟨b, rfl⟩
    rcases execAssemble_next h with ⟨_, rfl⟩ | ⟨_, rfl⟩
    · rfl
    · obtain ⟨-, -, -, htfl⟩ := assembleStage_frame b s.rx
      have hrx := assembleStage_eq b s.rx
      rw [← htfl] at hrx
      exact congrArg (fun rx => (s.setReceiver rx).finish none) hrx

end Sys2Proof.Machine
end

section
/-! PROOFS. The two faults (`spec/60_exceptions.md` R160 to R165): what fault entry writes, which lengths `PARSE` faults on, and a
held block. -/

namespace Sys2Proof.Machine

/-! ### Fault entry (R160, R163) -/

/-- Settles O53: fault entry is `State.raise`, and R160 gives the two codes. -/
theorem faultEntryWritesTwoRegisters : Obligations.FaultEntryWritesTwoRegisters := fun _ _ => ⟨rfl, rfl⟩

/-! ### `TruncatedFrame` (R162) -/

/-- A count of at most 12 fits `faultInfo`, so the detail is the count itself. -/
theorem truncatedFrame_info_toNat {n : Nat} (h : n ≤ 12) : (BitVec.ofNat 8 n).toNat = n :=
  (BitVec.toNat_ofNat n 8).trans (Nat.mod_eq_of_lt (by omega))

/-- Settles O34: up to 12 bytes `parse` raises with their number; above, it answers a telegram whatever the length field says. -/
theorem shortInputRaisesTruncatedFrame : Obligations.ShortInputRaisesTruncatedFrame := by
  refine fun s raw hacc => ⟨fun hshort => ?_, fun hlong => ?_⟩
  · exact ⟨_, truncatedFrame_info_toNat hshort, parseCommand_short hacc hshort⟩
  · obtain ⟨tel, hp⟩ := parseRaw_long hlong
    exact ⟨_, parseCommand_ok hacc hp, hacc.1, rfl⟩

/-! ### A held block (R164, R165) -/

/-- What tests for a fault first is turned away by a held block. -/
theorem SameRegisters.of_held {s t : State} {run : Answer} (hf : s.fault ≠ 0) (h : unlessFaulted s run = .next t) :
    SameRegisters s t :=
  next_inj.1 ((unlessFaulted_held hf run).symm.trans h) ▸ .turnAway s

/-- Settles O54: a pure function changes no register, faulted or not; every other instruction but `RESET`, the 64 rows of the line
code among them, tests for a fault first. -/
theorem onlyResetLeavesAFault : Obligations.OnlyResetLeavesAFault := by
  intro i s t hf hreset h
  cases i with
  | reset => exact absurd rfl hreset
  | pack6 group => exact SameRegisters.of_inDomain h
  | pack8 nibbles => exact SameRegisters.of_inDomain h
  | genpreamble bits osf => exact SameRegisters.of_inDomain h
  | xcorr chunk tmpl => exact SameRegisters.of_inDomain h
  | lut36 cw => exact SameRegisters.of_returnValue h
  | calcsize l => exact SameRegisters.of_returnValue h
  | strip raw l => exact SameRegisters.of_inDomain h
  | serializeFn tel => exact SameRegisters.of_inDomain h
  | _ => exact SameRegisters.of_held hf h

end Sys2Proof.Machine
end

section
/-! PROOFS. Reset and hazards (`spec/70_reset_and_hazards.md` R181, R184, R189): what a `FEED` after a frame, a `FEED` inside a frame
and every other step depend on or leave alone. -/

namespace Sys2Proof.Machine

/-! ### After a frame (R132, R181) -/

/-- After a complete frame the stages of `FEED` are those on a receiver just reset. -/
theorem feedStages_complete {rx : Receiver} (hc : rx.frameComplete = true) (p : Params) (chunk : List Sample) :
    feedStages p chunk rx = feedStages p chunk Receiver.reset := by
  rw [feedStages, feedStages, alignStages_betweenFrames (.inr hc), alignStages_betweenFrames (.inl rfl)]

/-- Settles O43: `FEED` accepts the chunk on both receivers, and its stages answer the same on both. -/
theorem everyFrameStartsFromTheSameReceiver : Obligations.EveryFrameStartsFromTheSameReceiver := by
  intro s t chunk hacc hc h
  have ⟨hf, hv, hchunk, hmax, _⟩ := hacc
  have hacc' : FeedAccepted chunk (s.setReceiver Receiver.reset) := ⟨hf, hv, hchunk, hmax, .inl le_rfl⟩
  have hsame := feedStages_complete hc s.cfg chunk
  cases hstages : feedStages s.cfg chunk s.rx with
  | ok rx =>
    obtain rfl := next_inj.1 ((feedCommand_of_ok hacc hstages).symm.trans h)
    exact ⟨_, feedCommand_of_ok hacc' (hsame.symm.trans hstages), fun _ => ⟨hf, rfl, rfl, rfl⟩, fun hne => absurd hf hne⟩
  | error cw =>
    obtain rfl := next_inj.1 ((feedCommand_of_error hacc hstages).symm.trans h)
    have hcode : FaultKind.invalidLineCode.code ≠ 0 := by decide
    exact ⟨_, feedCommand_of_error hacc' (hsame.symm.trans hstages), fun h0 => absurd h0 hcode,
      fun _ => ⟨rfl, rfl, rfl, rfl, rfl, rfl, rfl⟩⟩

/-! ### Inside a frame (R151 d, R189) -/

/-- Inside a frame the preamble is not an input of the stages: only `SYNC` reads the template, and it does not run. -/
theorem feedStages_inFrame_preamble {rx : Receiver} (hc : rx.frameComplete = false) (hs : 0 ≤ rx.samplingOffset)
    (p : Params) (bits : List Int) (chunk : List Sample) :
    feedStages { p with preambleBits := bits } chunk rx = feedStages p chunk rx := by
  rw [feedStages_inFrame hc hs, feedStages_inFrame hc hs]
  rfl

/-- A held block turns `FEED` away (R155 a). -/
theorem feedCommand_held {s : State} {chunk : List Sample} (hf : s.fault ≠ 0) :
    feedCommand chunk s = .next s.turnAway :=
  unlessFaulted_held hf _

/-- A `FEED` of a non-empty chunk that is neither held nor overlong answers only on a block that exists and samples that fit. -/
theorem feedAccepted_of_next {chunk : List Sample} {s t : State} (hf : s.fault = 0)
    (hmax : ∀ m ∈ s.cfg.chunkMax, chunk.length ≤ m) (hne : chunk ≠ [])
    (hoff : -1 ≤ s.rx.samplingOffset ∨ s.rx.frameComplete = true) (h : feedCommand chunk s = .next t) :
    FeedAccepted chunk s := by
  rw [feedCommand, unlessFaulted_clear hf, unlessOverlong_fits hmax, if_neg hne] at h
  obtain ⟨hv, h⟩ := whenBuilt_next h
  obtain ⟨hfit, _⟩ := whenSamplesFit_next h
  exact ⟨hf, hv, ⟨hne, hfit⟩, hmax, hoff⟩

/-- Settles O47: by how far the `FEED` gets. A held, an overlong and an empty one end before the stages, and the tests in front of
the stages read none of the preamble but that it is legal. -/
theorem noResynchronisationInsideAFrame : Obligations.NoResynchronisationInsideAFrame := by
  intro s t chunk bits hoff hc hvalid h
  change feedCommand chunk s = .next t at h
  rcases ne_or_eq s.fault 0 with hf | hf
  · obtain rfl := next_inj.1 ((feedCommand_held hf).symm.trans h)
    exact feedCommand_held hf
  by_cases hlong : ∃ m, s.cfg.chunkMax = some m ∧ m < chunk.length
  · obtain ⟨m, hm, hlong⟩ := hlong
    obtain rfl := next_inj.1 ((feedCommand_overlong hm hlong).symm.trans h)
    exact feedCommand_overlong hm hlong
  have hmax : ∀ m ∈ s.cfg.chunkMax, chunk.length ≤ m := fun m hm => not_lt.1 fun hlt => hlong ⟨m, hm, hlt⟩
  rcases eq_or_ne chunk [] with rfl | hne
  · obtain rfl := next_inj.1 ((feedCommand_nil hf).symm.trans h)
    exact feedCommand_nil hf
  have hacc : FeedAccepted chunk s := feedAccepted_of_next hf hmax hne (.inl (by omega)) h
  have ⟨_, _, hchunk, _, hoff'⟩ := hacc
  have hacc' : FeedAccepted chunk { s with cfg := { s.cfg with preambleBits := bits } } :=
    ⟨hf, hvalid, hchunk, hmax, hoff'⟩
  have hsame := feedStages_inFrame_preamble hc hoff s.cfg bits chunk
  cases hstages : feedStages s.cfg chunk s.rx with
  | ok rx =>
    obtain rfl := next_inj.1 ((feedCommand_of_ok hacc hstages).symm.trans h)
    exact feedCommand_of_ok hacc' (hsame.trans hstages)
  | error cw =>
    obtain rfl := next_inj.1 ((feedCommand_of_error hacc hstages).symm.trans h)
    exact feedCommand_of_error hacc' (hsame.trans hstages)

/-! ### Between frames (R38, R184) -/

/-- What a transfer decodes to writes no receiver register unless it is a `FEED` of a non-empty chunk or `RESET`. -/
theorem exec_decoded_rx {x : Transfer} {i : Instr} (hd : decode x = .ok i) {s t : State} (h : exec i s = .next t)
    (hfeed : ∀ c, x = .command 0 (.chunk c) → c = []) (hreset : x ≠ .command 3 .none) : t.rx = s.rx := by
  have ⟨hx, _⟩ := encode_of_decode hd
  rcases decode_ok hd with ⟨chunk, rfl⟩ | ⟨raw, rfl⟩ | rfl | rfl | rfl | rfl | ⟨cw, hcw⟩
  · obtain rfl := hfeed chunk (Option.some.inj hx).symm
    exact (execNopfeed_sameRegisters h).sameButFault.rx_eq
  · exact parseCommand_rx h
  · exact (execSerialize_sameRegisters h).sameButFault.rx_eq
  · exact absurd (Option.some.inj hx).symm hreset
  · exact (execNopfeed_sameRegisters h).sameButFault.rx_eq
  · exact parseCommand_rx h
  · exact (lineWord_sameButFault hcw h).rx_eq

/-- Settles O48: an idle step changes nothing, and every other step runs what the next transfer decodes to. -/
theorem completedFrameStaysUntilTheNextFeed : Obligations.CompletedFrameStaysUntilTheNextFeed := by
  intro s t h hfeed hreset
  rcases step_cases s with ⟨_, hidle⟩ | ⟨x, rest, hp, ⟨i, hd, hrun⟩ | ⟨e, _, hstop⟩⟩
  · obtain rfl := next_inj.1 (hidle.symm.trans h)
    rfl
  · rw [hp, List.head?_cons] at hfeed hreset
    exact exec_decoded_rx (s := { s with pending := rest }) hd (hrun.symm.trans h)
      (fun c hc => hfeed c (congrArg some hc)) fun hx => hreset (congrArg some hx)
  · cases hstop.symm.trans h

end Sys2Proof.Machine
end
